-- ==== Sys2Proof/Word.lean ====
section
/-! DEFINITION. The bit-vector types of the part: what the manual carries as bytes and as wrapping two-byte counters. -/

namespace Sys2Proof

/-- A byte of a frame, of a baseline record, or a counter 0..255 that wraps (R5, R73, R171). -/
abbrev Byte := BitVec 8

/-- A two-byte value that wraps from 65535 to 0: round number, transition counter, stamps, sequence and session
numbers (R30, R86, R111, R145), and the CRC-16 register (R164). -/
abbrev Word := BitVec 16

end Sys2Proof
end

