-- ==== Sys2Proof/Syntax.lean ====
section
/-! DEFINITION. The commands of the part: one constructor of `Instr` per row of spec/opcode_table.json. -/

namespace Sys2Proof

/-- The three SPI slave ports (00_scope.md "The 1606 in its system"). -/
inductive Port
  | a
  | b
  | m
deriving DecidableEq, Repr

/-- A speaker line, 0 to 15. -/
abbrev LineNo := Fin 16

/-- An amplifier, 0 to 5. -/
abbrev AmpNo := Fin 6

/-- A converter code, 0..4095 (00_scope.md "Quantities"). -/
abbrev Code := Fin 4096

/-- A number of a baseline record, 0 to 22 (R162). -/
abbrev RecordNo := Fin 23

/-- The requests of the request table (11_port_protocol_and_requests.md "Request codes"), as names. -/
inductive Request
  | status | identify | readLine | readAmp | readRecord | listRecords | readQueue
  | listen | leave | setNotify | fetch | peek | done | doneClass | readCompletion | resetPort
  | ack | ackAll
  | isolate | restore | enableLine | disableLine | configureLine | learn
  | cover | returnLines | enableAmp | disableAmp | configureAmp
  | start | stop | emergencyOn | emergencyOff | configureSystem | store
deriving DecidableEq, Repr

/-- The result fields of a measurement, by its kind (R21). -/
inductive Reading
  | line (vc ic : Code) (overrange : Bool)
  | earth (lc : Code) (trip : Bool)
  | amp (ac : Code) (overrange prot : Bool)
deriving DecidableEq, Repr

/-- The commands the part takes: the rows of spec/opcode_table.json, in its order. A request carries the issuing
port, the tag and the payload bytes of its frame (R171). -/
inductive Instr
  | status (p : Port) (tag : Byte) (payload : List Byte)
  | identify (p : Port) (tag : Byte) (payload : List Byte)
  | readLine (p : Port) (tag : Byte) (payload : List Byte)
  | readAmp (p : Port) (tag : Byte) (payload : List Byte)
  | readRecord (p : Port) (tag : Byte) (payload : List Byte)
  | listRecords (p : Port) (tag : Byte) (payload : List Byte)
  | readQueue (p : Port) (tag : Byte) (payload : List Byte)
  | listen (p : Port) (tag : Byte) (payload : List Byte)
  | leave (p : Port) (tag : Byte) (payload : List Byte)
  | setNotify (p : Port) (tag : Byte) (payload : List Byte)
  | fetch (p : Port) (tag : Byte) (payload : List Byte)
  | peek (p : Port) (tag : Byte) (payload : List Byte)
  | done (p : Port) (tag : Byte) (payload : List Byte)
  | doneClass (p : Port) (tag : Byte) (payload : List Byte)
  | readCompletion (p : Port) (tag : Byte) (payload : List Byte)
  | resetPort (p : Port) (tag : Byte) (payload : List Byte)
  | ack (p : Port) (tag : Byte) (payload : List Byte)
  | ackAll (p : Port) (tag : Byte) (payload : List Byte)
  | isolate (p : Port) (tag : Byte) (payload : List Byte)
  | restore (p : Port) (tag : Byte) (payload : List Byte)
  | enableLine (p : Port) (tag : Byte) (payload : List Byte)
  | disableLine (p : Port) (tag : Byte) (payload : List Byte)
  | configureLine (p : Port) (tag : Byte) (payload : List Byte)
  | learn (p : Port) (tag : Byte) (payload : List Byte)
  | cover (p : Port) (tag : Byte) (payload : List Byte)
  | returnLines (p : Port) (tag : Byte) (payload : List Byte)
  | enableAmp (p : Port) (tag : Byte) (payload : List Byte)
  | disableAmp (p : Port) (tag : Byte) (payload : List Byte)
  | configureAmp (p : Port) (tag : Byte) (payload : List Byte)
  | start (p : Port) (tag : Byte) (payload : List Byte)
  | stop (p : Port) (tag : Byte) (payload : List Byte)
  | emergencyOn (p : Port) (tag : Byte) (payload : List Byte)
  | emergencyOff (p : Port) (tag : Byte) (payload : List Byte)
  | configureSystem (p : Port) (tag : Byte) (payload : List Byte)
  | store (p : Port) (tag : Byte) (payload : List Byte)
  /-- A taken frame whose code is not in the request table or whose length byte exceeds 32 (R173). -/
  | unknownRequest (p : Port) (code tag length : Byte)
  /-- Chip-select rises before the request is taken; the bytes received so far (R172). -/
  | frameAborted (p : Port) (received : List Byte)
  | powerOn
  | brownOut
  | resetPin
  /-- The reset's cause ends, with the two levels sampled then: whether the supply is below the rising warning
  level (R159), and whether EMERG is asserted (R148). -/
  | resetEnd (supplyLow emergAsserted : Bool)
  /-- The store answers the read of the record the load is at, with these bytes (R166). -/
  | recordRead (answer : List Byte)
  | unreadable
  | emergAsserted
  | emergReleased
  | supplyFalls
  | supplyRises
  | measurementCompletion (result : Reading)
  | emptyRoundExpiry
  | relayCompletion (n : LineNo)
  | retryExpiry (n : LineNo)
  | writeCompletion
  | writeTimeout
deriving DecidableEq, Repr

end Sys2Proof
end

