-- ==== Sys2Proof/Decode.lean ====
section
/-! DEFINITION. Commands spelled by words of the command table. -/

namespace Sys2Proof

/-- The command that a word spells by the bits of spec/opcode_table.json. No row of the table has bits, so no word spells
a command: commands reach the part as frames, pins and events (R171, R172). -/
def decodeTableWord (_nbits _w : Nat) : Option Instr := none

end Sys2Proof
end

