-- ==== Sys2Proof/Config.lean ====
section
/-! DEFINITION. The free value of the model, and the record types of the part's stored configuration. -/

namespace Sys2Proof

/-- The revision number of the part as IDENTIFY sends it. R177 names it and gives neither a value nor a range, so
neither its bytes nor their number are fixed. FREE VALUE, log entry 11; safe. -/
opaque Config.revision : List Byte

/-- Whether a report of the store device that arrives during a write is the late one of an earlier write that timed out, at
the n-th report of which both can be. R168 makes such a late report no event and does not say which report is one. FREE
VALUE, log entry 32; safe. -/
opaque Config.reportIsLate : Nat → Bool

/-- DUTY or STANDBY (05_amplifier_supervision.md 5.1). -/
inductive Role
  | duty
  | standby
deriving DecidableEq, Repr

/-- The configuration fields of one line (01_speaker_lines.md 1.1). -/
structure LineConfig where
  enabled : Bool
  home : AmpNo
  gain : Nat
  /-- Reference impedance Zref, 1..65534, or absent. -/
  zref : Option Nat
  /-- Low window L, per mille. -/
  low : Nat
  /-- High window H, per mille. -/
  high : Nat
  /-- Hysteresis Hy, per mille, below min(L, H). -/
  hyst : Nat
  /-- Short floor Zs. -/
  shortFloor : Nat
  /-- Filter shift s. -/
  shift : Nat
  /-- Raise count Rc. -/
  raiseCount : Nat
  /-- Clear count Cc. -/
  clearCount : Nat
  earthCheck : Bool
  /-- Earth threshold T. -/
  threshold : Nat
  autoRetry : Bool
  /-- Retry delay in seconds. -/
  retryDelay : Nat
  retryLimit : Nat
deriving DecidableEq, Repr

/-- The configuration fields of one amplifier (05_amplifier_supervision.md 5.1). -/
structure AmpConfig where
  role : Role
  /-- Minimum pilot Amin. -/
  amin : Nat
  raiseCount : Nat
  clearCount : Nat
  enabled : Bool
deriving DecidableEq, Repr

/-- The system settings (R148, R162, R180). -/
structure SystemConfig where
  earthDivider : Nat
  blindLimit : Nat
  settleRounds : Nat
  autostart : Bool
deriving DecidableEq, Repr

end Sys2Proof
end

