-- ==== Sys2Proof/Machine/Defaults.lean ====
section
/-! DEFINITION. The factory defaults of the configuration tables, and the fixed numbers of the part (capacities and
durations), each from the rule it is named in. -/

namespace Sys2Proof.Machine

/-- All lines, in number order. -/
def allLines : List LineNo := [0, 1, 2, 3, 4, 5, 6, 7, 8, 9, 10, 11, 12, 13, 14, 15]

/-- All amplifiers, in number order. -/
def allAmps : List AmpNo := [0, 1, 2, 3, 4, 5]

/-- All ports, in the order A, B, M. -/
def allPorts : List Port := [.a, .b, .m]

/-- All baseline records, in number order (R162). -/
def allRecords : List RecordNo :=
  [0, 1, 2, 3, 4, 5, 6, 7, 8, 9, 10, 11, 12, 13, 14, 15, 16, 17, 18, 19, 20, 21, 22]

/-- The factory home amplifier of a line: line ÷ 4 (01_speaker_lines.md 1.1). -/
def factoryHome (n : LineNo) : AmpNo := ⟨n.val / 4, by have := n.isLt; omega⟩

/-- The factory configuration of a line (01_speaker_lines.md 1.1, R165). -/
def factoryLine (n : LineNo) : LineConfig where
  enabled := true
  home := factoryHome n
  gain := 512
  zref := none
  low := 250
  high := 300
  hyst := 50
  shortFloor := 20
  shift := 2
  raiseCount := 3
  clearCount := 3
  earthCheck := true
  threshold := 16
  autoRetry := true
  retryDelay := 30
  retryLimit := 3

/-- The factory configuration of an amplifier (05_amplifier_supervision.md 5.1, R165). -/
def factoryAmp (k : AmpNo) : AmpConfig where
  role := if k.val ≤ 3 then .duty else .standby
  amin := 1024
  raiseCount := 3
  clearCount := 3
  enabled := true

/-- The factory system settings (R165): autostart's factory default is yes. -/
def factorySystem : SystemConfig where
  earthDivider := 4
  blindLimit := 20
  settleRounds := 3
  autostart := true

/-- What a rejected system record gives (R165): the factory settings with autostart no. -/
def rejectedSystem : SystemConfig := { factorySystem with autostart := false }

/-- The fault table holds at most 48 records (R112). -/
def tableCapacity : Nat := 48

/-- A port's outstanding count of long requests never exceeds 4 (R143). -/
def outstandingLimit : Nat := 4

/-- A relay operation completes 12 ms after its order (R5). -/
def relayMs : Nat := 12

/-- An empty round ends 250 ms after it started (R31). -/
def emptyRoundMs : Nat := 250

/-- A record read not answered within 25 ms is judged UNREADABLE (R166). -/
def readMs : Nat := 25

/-- A write ends by timeout 25 ms after acceptance (R168). -/
def writeMs : Nat := 25

/-- A learn job takes eight samples (R27, R56). -/
def learnSamples : Nat := 8

/-- The open value of an impedance (R42). -/
def openZ : Nat := 65535

end Sys2Proof.Machine
end

