-- ==== Sys2Proof/Machine/State.lean ====
section
/-! DEFINITION. The state of the part: every field the spec gives each block, as plain data, the queue of waiting
commands, the outcomes' reason types, and the state after reset. -/

namespace Sys2Proof.Machine

/-! ### Per-port data -/

/-- One value for each of Ports A, B and M. -/
structure PerPort (α : Type) where
  a : α
  b : α
  m : α
deriving DecidableEq, Repr

/-- The value of one port. -/
def PerPort.get {α : Type} (x : PerPort α) : Port → α
  | .a => x.a
  | .b => x.b
  | .m => x.m

/-- The values with one port's replaced. -/
def PerPort.set {α : Type} (x : PerPort α) (p : Port) (v : α) : PerPort α :=
  match p with
  | .a => { x with a := v }
  | .b => { x with b := v }
  | .m => { x with m := v }

/-! ### Line supervisor and earth monitor (01, 03, 04) -/

/-- States of a line, in the order of the runtime table (01_speaker_lines.md 1.1). -/
inductive LineState
  | disabled | connected | isolated | probing | locked
deriving DecidableEq, Repr

/-- Positions of a line selector (1.3): HOME, OPEN, BUS0..BUS5, TEST. -/
inductive Selector
  | home
  | off
  | bus (k : AmpNo)
  | test
deriving DecidableEq, Repr

/-- Isolation causes (1.1): NONE, PROTECTIVE, COMMAND, LOCKOUT. -/
inductive IsolationCause
  | noCause | protective | command | lockout
deriving DecidableEq, Repr

/-- Impedance classes (1.1): NORMAL, OPEN, SHORT, LOW, HIGH. -/
inductive LineClass
  | normal | opened | short | low | high
deriving DecidableEq, Repr

/-- The retry timer (R9); the time is in ms. -/
inductive RetryTimer
  | idle
  | running (ms : Nat)
  | frozen (ms : Nat)
deriving DecidableEq, Repr

/-- Earth states (R59). -/
inductive EarthState
  | normal | leak
deriving DecidableEq, Repr

/-- The requester that an owning block records with a long request: port, tag and the port's session number at
acceptance (R143), and the request as the port sent it (R104). -/
structure Requester where
  port : Port
  tag : Byte
  session : Word
  request : Request
deriving DecidableEq, Repr

/-- A line's learn accumulator (R55, R56). -/
structure LearnAcc where
  count : Nat
  sum : Nat
deriving DecidableEq, Repr

/-- One line record: working configuration, runtime fields and earth fields (1.1, R59). -/
structure Line where
  cfg : LineConfig
  state : LineState
  /-- The position held, or being moved to while a relay operation is in progress. -/
  selector : Selector
  /-- The ms left of the relay operation in progress; absent when the selector is at rest (R5). -/
  relayLeft : Option Nat
  current : AmpNo
  /-- Connection epoch (R5, R6). -/
  epoch : Byte
  cause : IsolationCause
  rawZ : Option Nat
  zf : Option Nat
  deviation : Option Int
  confirmed : LineClass
  candidate : Option LineClass
  count : Nat
  masked : Nat
  retryCount : Nat
  timer : RetryTimer
  probeDue : Bool
  passCount : Nat
  /-- The waiting RESTORE (R16). -/
  waiting : Option Requester
  lastLc : Option Code
  earth : EarthState
  earthCandidate : Option EarthState
  earthCount : Nat
  learn : Option LearnAcc
deriving DecidableEq, Repr

/-! ### Measurement channel (02) -/

/-- A subject of the verify or confirm queue (R25). -/
inductive Subject
  | line (n : LineNo)
  | amp (k : AmpNo)
deriving DecidableEq, Repr

/-- A kind of measurement together with its subject (R21): also what a slot of a round names (R28). -/
inductive Target
  | line (n : LineNo)
  | earth (n : LineNo)
  | amp (k : AmpNo)
deriving DecidableEq, Repr

/-- The source a measurement was granted from (R21). -/
inductive GrantClass
  | verify | confirm | learn | scan
deriving DecidableEq, Repr

/-- The classes of the rotation (R33). -/
inductive RotClass
  | confirm | learn | scan
deriving DecidableEq, Repr

/-- The record of the measurement in flight (R21). -/
structure Measurement where
  target : Target
  cls : GrantClass
  /-- LINE and EARTH: the line's connection epoch at grant. -/
  epochCopy : Option Byte
  /-- AMP: the amplifier's state-change stamp at grant. -/
  stampCopy : Option Byte
  /-- SCAN: the position of the slot in the round's slot list. -/
  slot : Option Nat
  /-- LEARN: the job the sample was granted for has ended (R27). -/
  orphan : Bool
  /-- The ms left of its duration. -/
  left : Nat
deriving DecidableEq, Repr

/-- The learn job (R27). -/
structure LearnJob where
  line : LineNo
  requester : Requester
  granted : Nat
deriving DecidableEq, Repr

/-- The scan round in progress (R28); `left` is the ms left of an empty round (R31). -/
structure Round where
  slots : List Target
  pos : Nat
  left : Nat
deriving DecidableEq, Repr

/-- The measurement channel's state (R39). -/
structure Channel where
  inFlight : Option Measurement
  verify : List Subject
  confirm : List Subject
  job : Option LearnJob
  round : Option Round
  roundNumber : Word
  rotation : RotClass
deriving DecidableEq, Repr

/-! ### Amplifier supervisor (05) -/

/-- States of an amplifier (R71): duty HEALTHY to RELIEVED, standby FREE to FAULTY, and DISABLED for both. -/
inductive AmpState
  | healthy | suspect | failed | covered | relieved
  | free | busy | faulty
  | disabled
deriving DecidableEq, Repr

/-- Conditions of an amplifier (R71). -/
inductive Condition
  | normal | fail
deriving DecidableEq, Repr

/-- One amplifier record (R71). -/
structure Amp where
  cfg : AmpConfig
  state : AmpState
  condition : Condition
  candidate : Option Condition
  count : Nat
  lastAc : Option Code
  /-- Last PROT sample: `true` is asserted. -/
  lastProt : Option Bool
  /-- Standby: the amplifier it covers. -/
  coveredAmp : Option AmpNo
  /-- Duty: the standby that covers it. -/
  coveringStandby : Option AmpNo
  coverSeq : Option Word
  carrying : AmpNo
  /-- State-change stamp (R73). -/
  stamp : Byte
deriving DecidableEq, Repr

/-! ### Changeover unit (06) -/

/-- COVER or RETURN. -/
inductive CoKind
  | cover | returnLines
deriving DecidableEq, Repr

/-- AUTO or MANUAL. -/
inductive Origin
  | auto | manual
deriving DecidableEq, Repr

/-- Phases of an operation (R86). -/
inductive Phase
  | moving | verifying | movingBack
deriving DecidableEq, Repr

/-- An entry of the changeover queue (R87). -/
structure CoEntry where
  duty : AmpNo
  kind : CoKind
  origin : Origin
  requester : Option Requester
  seq : Word
deriving DecidableEq, Repr

/-- The operation record (R86). -/
structure Operation where
  kind : CoKind
  duty : AmpNo
  standby : AmpNo
  origin : Origin
  requester : Option Requester
  seq : Word
  /-- RETURN: the sequence a cover asked for after its failure takes (R86, R100). -/
  resumeSeq : Option Word
  phase : Phase
deriving DecidableEq, Repr

/-- The changeover unit's state (R86). -/
structure Changeover where
  queue : List CoEntry
  op : Option Operation
  seqCounter : Word
deriving DecidableEq, Repr

/-! ### Fault table (07) -/

/-- The number of a fault class, 0..7 (R108). -/
abbrev ClassNo := Fin 8

/-- The subject of STORE_FAULT (R108). -/
inductive StoreSubject
  | line (n : LineNo)
  | amp (k : AmpNo)
  | system
deriving DecidableEq, Repr

/-- A well-formed fault key (R108): class, subject and, for class 7, reason. -/
inductive FaultKey
  | ampFail (k : AmpNo)
  | noCover (k : AmpNo)
  | lineShort (n : LineNo)
  | lineOpen (n : LineNo)
  | earthLeak (n : LineNo)
  | lineLow (n : LineNo)
  | lineHigh (n : LineNo)
  | uncalibrated (n : LineNo)
  | blind (n : LineNo)
  | storeFault (x : StoreSubject)
  | lowSupply
deriving DecidableEq, Repr

/-- Lifecycle of a record (R109). -/
inductive Lifecycle
  | activeUnack | activeAck | clearedUnack | closed
deriving DecidableEq, Repr

/-- A detail snapshot (R110). -/
inductive Snapshot
  /-- Zf and deviation of the line. -/
  | impedance (zf : Option Nat) (deviation : Option Int)
  /-- Lc and the estimate R. -/
  | earth (lc : Code) (estimate : Nat)
  /-- Ac and the PROT sample. -/
  | amp (ac : Code) (prot : Bool)
deriving DecidableEq, Repr

/-- A fault record (R109). -/
structure FaultRecord where
  key : FaultKey
  lifecycle : Lifecycle
  occurrences : Nat
  firstRound : Word
  stamp : Word
  ackPort : Option Port
  snapshot : Option Snapshot
  /-- The NEW marks. -/
  marks : PerPort Bool
deriving DecidableEq, Repr

/-- An entry of the deferred list (R115). -/
structure Deferred where
  key : FaultKey
  snapshot : Option Snapshot
  firstRound : Word
deriving DecidableEq, Repr

/-- The fault table's state. -/
structure FaultTable where
  /-- The ordered list, oldest transition at the head (R112). -/
  records : List FaultRecord
  /-- The deferred list, oldest at the head (R116). -/
  deferred : List Deferred
  /-- The transition counter (R111). -/
  counter : Word
  /-- TABLE_FULL (R124). -/
  full : Bool
deriving DecidableEq, Repr

/-! ### Notification unit and port interface (08, 11) -/

/-- Reply codes ("Reply and outcome codes", 11). -/
inductive ReplyCode
  | ok | accepted | noChange | clamped | nothing
  | busy | notPermitted | badFrame | unknownRequest | badSubject | wrongState
  | emergency | notRunning | lowSupply | inUse | noStandby | alarmPending
deriving DecidableEq, Repr

/-- The reply of a frame: its code and its payload bytes (R171, R174). -/
structure Reply where
  code : ReplyCode
  payload : List Byte
deriving DecidableEq, Repr

/-- Completion outcomes ("Reply and outcome codes", 11). -/
inductive CompletionOutcome
  | learnDone | learnDisturbed | learnOpen | learnShort | learnAborted
  | storeDone | storeTimeout
  | covered | returned | returnFailed
  | restored | restoreFailed | restoreAborted
deriving DecidableEq, Repr

/-- A completion record (R143). -/
structure Completion where
  tag : Byte
  request : Request
  outcome : CompletionOutcome
deriving DecidableEq, Repr

/-- A set of fault classes: the flag of each class. -/
abbrev ClassSet := Vector Bool 8

/-- The notification and completion state of one port (R129), and the reply of its last taken request. -/
structure PortState where
  listening : Bool
  /-- The class mask: `true` is masked. -/
  mask : ClassSet
  urgent : Nat
  autoDone : Bool
  inService : ClassSet
  latch : Bool
  completions : List Completion
  inFlight : Nat
  session : Word
  reply : Option Reply
deriving DecidableEq, Repr

/-! ### Mode control (09) -/

/-- Supervision modes (R148). -/
inductive Mode
  | loading | standby | settling | active | stopping
deriving DecidableEq, Repr

/-- Supply states (R159). -/
inductive Supply
  | normal | low
deriving DecidableEq, Repr

/-- Kinds of reset and reset causes (R160). -/
inductive ResetKind
  | powerOn | brownOut | resetPin
deriving DecidableEq, Repr

/-- A reset in force (R160). -/
structure ResetInForce where
  /-- The supply was below the power-on level at some time during the reset. -/
  belowPowerOn : Bool
  /-- The kind that began last. -/
  last : ResetKind
deriving DecidableEq, Repr

/-- Mode control's state (R148) with the system settings it holds. -/
structure ModeControl where
  mode : Mode
  settleCount : Nat
  /-- The EMERG input: `true` is asserted. -/
  emergInput : Bool
  flagA : Bool
  flagB : Bool
  supply : Supply
  cause : ResetKind
  resetInForce : Option ResetInForce
  sys : SystemConfig
deriving DecidableEq, Repr

/-! ### Baseline store (10) -/

/-- Record conditions (R162). -/
inductive RecordCondition
  | valid | defaulted | writing | writeFailed
deriving DecidableEq, Repr

/-- Load causes (R162, R165). -/
inductive LoadCause
  | noCause | blank | badCrc | badContent | unreadable
deriving DecidableEq, Repr

/-- Condition and load cause of one record. -/
structure RecordStatus where
  condition : RecordCondition
  cause : LoadCause
deriving DecidableEq, Repr

/-- The write in flight (R162, R167). -/
structure WriteInFlight where
  record : RecordNo
  requester : Requester
  /-- The bytes being written. -/
  bytes : List Byte
  /-- The ms left before timeout. -/
  left : Nat
deriving DecidableEq, Repr

/-- What the part can know of a nonvolatile area (R162, R168, R170). -/
inductive Area
  /-- Any content is possible: before the first read or write, and after a write that timed out (R168). DESIGN CHOICE,
  log entry 5; safe. -/
  | unknown
  /-- The bytes last written or answered. -/
  | known (bytes : List Byte)
  /-- A reset has cut off a write of it: erased or programmed in part, and never a record that passes its checks
  (R170). -/
  | cutOff
deriving DecidableEq, Repr

/-- The baseline store's state, with the nonvolatile areas. -/
structure Store where
  /-- The area of each record: what the part can know of it (R162, R168, R170). -/
  areas : Vector Area 23
  status : Vector RecordStatus 23
  /-- The number of records judged so far by the load (R176). -/
  judged : Nat
  /-- The ms left of the read in progress during the load (R166). -/
  readLeft : Nat
  write : Option WriteInFlight
  /-- The writes that have timed out and whose report may still arrive (R168). -/
  reportsDue : Nat
deriving DecidableEq, Repr

/-! ### The whole part -/

/-- The state of the part and the queue of waiting commands. -/
structure State where
  lines : Vector Line 16
  amps : Vector Amp 6
  chan : Channel
  co : Changeover
  /-- The last move of lines (R7): the lines whose relay operation it started is still in progress. -/
  move : Option (List LineNo)
  faults : FaultTable
  ports : PerPort PortState
  mc : ModeControl
  store : Store
  /-- How many free values have been taken (the model's own, log entry 32). -/
  freeUses : Nat
  /-- The commands that wait, first in, first out (the model's own, log entry 1). -/
  pending : List Instr
deriving DecidableEq, Repr

/-- The part has no machine fault: what the manual calls faults are records of the fault table, and a request that is
refused is answered with a reply code (R108, R174). Nothing raises one; safe. -/
inductive Fault
deriving DecidableEq, Repr

/-- Why a command has no outcome. -/
inductive Refusal
  /-- Raised by `exec` alone, for a command that has no meaning yet, by its mnemonic. No arm of this model raises it;
  safe. -/
  | notModelled (mnemonic : String)
deriving DecidableEq, Repr

/-! ### After reset -/

/-- A line record after any reset (1.1, R3, R59). Until the load has judged its record the configuration is the
factory default and the current amplifier its home. DESIGN CHOICE, log entry 3; unsafe. -/
def resetLine (n : LineNo) : Line where
  cfg := factoryLine n
  state := .disabled
  selector := .home
  relayLeft := none
  current := factoryHome n
  epoch := 0
  cause := .noCause
  rawZ := none
  zf := none
  deviation := none
  confirmed := .normal
  candidate := none
  count := 0
  masked := 0
  retryCount := 0
  timer := .idle
  probeDue := false
  passCount := 0
  waiting := none
  lastLc := none
  earth := .normal
  earthCandidate := none
  earthCount := 0
  learn := none

/-- An amplifier record after any reset (R71). DESIGN CHOICE for the configuration, log entry 3; unsafe. -/
def resetAmp (k : AmpNo) : Amp where
  cfg := factoryAmp k
  state := .disabled
  condition := .normal
  candidate := none
  count := 0
  lastAc := none
  lastProt := none
  coveredAmp := none
  coveringStandby := none
  coverSeq := none
  carrying := k
  stamp := 0

/-- The channel after any reset (R39). -/
def resetChannel : Channel where
  inFlight := none
  verify := []
  confirm := []
  job := none
  round := none
  roundNumber := 0
  rotation := .confirm

/-- The changeover unit after any reset (R86). -/
def resetChangeover : Changeover where
  queue := []
  op := none
  seqCounter := 0

/-- The fault table after any reset (R128). -/
def resetFaults : FaultTable where
  records := []
  deferred := []
  counter := 0
  full := false

/-- The empty set of classes. -/
def noClasses : ClassSet := #v[false, false, false, false, false, false, false, false]

/-- A port after any reset (R129). -/
def resetPortState : PortState where
  listening := false
  mask := noClasses
  urgent := 3
  autoDone := false
  inService := noClasses
  latch := false
  completions := []
  inFlight := 0
  session := 0
  reply := none

/-- Mode control after a power-on reset that has ended with EMERG released and the supply above the rising warning
level (R148, R159, R160). DESIGN CHOICE for the sampled levels and the cause, log entry 2; unsafe. -/
def resetMode : ModeControl where
  mode := .loading
  settleCount := 0
  emergInput := false
  flagA := false
  flagB := false
  supply := .normal
  cause := .powerOn
  resetInForce := none
  sys := factorySystem

/-- The status of a record before the load has judged it, sent as 0 (R176). DESIGN CHOICE, log entry 4; unsafe. -/
def unjudged : RecordStatus := ⟨.valid, .noCause⟩

/-- The store at the start of a load (R166), with areas whose content is not known (log entry 5). -/
def resetStore : Store where
  areas := Vector.replicate 23 .unknown
  status := Vector.replicate 23 unjudged
  judged := 0
  readLeft := readMs
  write := none
  reportsDue := 0

/-- The part right after a power-on reset has ended: LOADING, with the read of record 0 begun (R149, R166). -/
def State.reset : State where
  lines := #v[resetLine 0, resetLine 1, resetLine 2, resetLine 3, resetLine 4, resetLine 5, resetLine 6, resetLine 7,
    resetLine 8, resetLine 9, resetLine 10, resetLine 11, resetLine 12, resetLine 13, resetLine 14, resetLine 15]
  amps := #v[resetAmp 0, resetAmp 1, resetAmp 2, resetAmp 3, resetAmp 4, resetAmp 5]
  chan := resetChannel
  co := resetChangeover
  move := none
  faults := resetFaults
  ports := ⟨resetPortState, resetPortState, resetPortState⟩
  mc := resetMode
  store := resetStore
  freeUses := 0
  pending := []

end Sys2Proof.Machine
end

