-- ==== Sys2Proof/Machine/Arith.lean ====
section
/-! DEFINITION. The arithmetic of readings: raw impedance, filter, deviation, classes, the shared debounce, the earth
estimate, and the CRC-16 of baseline records. -/

namespace Sys2Proof.Machine

/-- Division of naturals rounded up. -/
def ceilDiv (x y : Nat) : Nat := (x + y - 1) / y

/-- Raw impedance of a LINE reading that is not masked (R42). -/
def rawImpedance (vc ic : Code) (gain : Nat) : Nat :=
  if ic.val < 8 then openZ else min (vc.val * gain / ic.val) 65534

/-- The filter takes a reading (R43). -/
def filterZ (zf : Option Nat) (shift z : Nat) : Nat :=
  if z = openZ then openZ
  else
    match zf with
    | none => z
    | some f =>
      if f = openZ then z
      else if f ≤ z then f + ceilDiv (z - f) (2 ^ shift)
      else f - ceilDiv (f - z) (2 ^ shift)

/-- Deviation from the reference in per mille (R45). -/
def deviationOf (zref zf : Option Nat) : Option Int :=
  match zref, zf with
  | some r, some f =>
    if f = openZ then none
    else some (min 9999 (Int.tdiv (((f : Int) - r) * 1000) r))
  | _, _ => none

/-- LOW, HIGH or NORMAL from a deviation, with the window that the confirmed class narrows (R47). -/
def windowClass (cfg : LineConfig) (confirmed : LineClass) (dev : Int) : LineClass :=
  let lowEdge : Int := if confirmed = .low then -((cfg.low : Int) - cfg.hyst) else -(cfg.low : Int)
  let highEdge : Int := if confirmed = .high then (cfg.high : Int) - cfg.hyst else cfg.high
  if dev < lowEdge then .low
  else if highEdge < dev then .high
  else .normal

/-- The instantaneous class of a classification reading (R46). -/
def instantClass (cfg : LineConfig) (confirmed : LineClass) (zf : Nat) (dev : Option Int) : LineClass :=
  if zf = openZ then .opened
  else if zf ≤ cfg.shortFloor then .short
  else
    match cfg.zref, dev with
    | some _, some d => windowClass cfg confirmed d
    | _, _ => .normal

/-- The count required to confirm an impedance class (R48). -/
def requiredCount (cfg : LineConfig) : LineClass → Nat
  | .short => 2
  | .normal => cfg.clearCount
  | _ => cfg.raiseCount

/-- The count required to confirm an earth state (R65). -/
def requiredEarth (cfg : LineConfig) : EarthState → Nat
  | .leak => cfg.raiseCount
  | .normal => cfg.clearCount

/-- The count required to confirm a condition of an amplifier (R76). -/
def requiredCondition (cfg : AmpConfig) : Condition → Nat
  | .fail => cfg.raiseCount
  | .normal => cfg.clearCount

/-- What a debounce holds, and whether the step has confirmed a new value. -/
structure Debounce (α : Type) where
  confirmed : α
  candidate : Option α
  count : Nat
  changed : Bool
deriving DecidableEq, Repr

/-- One step of a debounce on the instantaneous value `x` (R48, R65, R76). -/
def debounce {α : Type} [DecidableEq α] (confirmed : α) (candidate : Option α) (count : Nat) (required : α → Nat)
    (x : α) : Debounce α :=
  if x = confirmed then ⟨confirmed, none, 0, false⟩
  else
    let c := if candidate = some x then count + 1 else 1
    if required x ≤ c then ⟨x, none, 0, true⟩ else ⟨confirmed, some x, c, false⟩

/-- The earth estimate in kΩ of a leakage code (R63). -/
def earthEstimate (lc : Code) : Nat := if lc.val = 0 then 9999 else min 9999 (200000 / lc.val)

/-- Whether an EARTH result is a trip (R61, R62). -/
def isTrip (threshold : Nat) (lc : Code) (trip : Bool) : Bool := trip || decide (32 * threshold ≤ lc.val)

/-- The leakage code an EARTH result carries: 4095 when the comparator has tripped (R23, R62). -/
def effectiveLc (lc : Code) (trip : Bool) : Code := if trip then 4095 else lc

/-- Whether an AMP reading is normal (R74). -/
def normalReading (amin : Nat) (ac : Code) (prot : Bool) : Bool := decide (amin ≤ ac.val) && !prot

/-- The learned reference of eight samples (R57). -/
def learnedReference (sum : Nat) : Nat := (sum + 4) / 8

/-! ### The CRC-16 of baseline records (R164) -/

/-- One shift of the register. -/
def crcShift (r : Word) : Word := if r.msb then (r <<< 1) ^^^ 0x1021#16 else r <<< 1

/-- One byte combined into the register, and eight shifts. -/
def crcByte (r : Word) (x : Byte) : Word :=
  let r := r ^^^ ((x.setWidth 16) <<< 8)
  crcShift (crcShift (crcShift (crcShift (crcShift (crcShift (crcShift (crcShift r)))))))

/-- The CRC-16 of a list of bytes, register starting at 0xFFFF. -/
def crc16 (bytes : List Byte) : Word := bytes.foldl crcByte 0xFFFF#16

end Sys2Proof.Machine
end

