-- ==== Sys2Proof/Machine/Ops.lean ====
section
/-! DEFINITION. The named operations over the state: reading and writing one record, the emergency and mode questions,
the queues of the measurement channel, retry timers, and completions to the ports. -/

namespace Sys2Proof.Machine

/-! ### Reading and writing records -/

/-- The line record of line `n`. -/
def State.line (s : State) (n : LineNo) : Line := s.lines.get n

/-- The state with the record of line `n` replaced. -/
def State.setLine (s : State) (n : LineNo) (l : Line) : State := { s with lines := s.lines.set n.val l n.isLt }

/-- The amplifier record of amplifier `k`. -/
def State.amp (s : State) (k : AmpNo) : Amp := s.amps.get k

/-- The state with the record of amplifier `k` replaced. -/
def State.setAmp (s : State) (k : AmpNo) (x : Amp) : State := { s with amps := s.amps.set k.val x k.isLt }

/-- The state of port `p`. -/
def State.port (s : State) (p : Port) : PortState := s.ports.get p

/-- The state with that of port `p` replaced. -/
def State.setPort (s : State) (p : Port) (x : PortState) : State := { s with ports := s.ports.set p x }

/-- The flag of a class in a set of classes. -/
def ClassSet.has (x : ClassSet) (c : ClassNo) : Bool := x.get c

/-- A set of classes with one class put in or taken out. -/
def ClassSet.put (x : ClassSet) (c : ClassNo) (v : Bool) : ClassSet := x.set c.val v c.isLt

/-! ### Questions the blocks put to mode control -/

/-- Emergency is in force while any of the three sources is (R148). -/
def State.emergency (s : State) : Bool := s.mc.emergInput || s.mc.flagA || s.mc.flagB

/-- The mode is SETTLING or ACTIVE. -/
def State.runs (s : State) : Bool := s.mc.mode = .settling || s.mc.mode = .active

/-! ### The lines and selectors -/

/-- A line's selector is moving while a relay operation is in progress (R5). -/
def Line.moving (l : Line) : Bool := l.relayLeft.isSome

/-- The full retry delay in ms (R9). -/
def Line.fullDelay (l : Line) : Nat := l.cfg.retryDelay * 1000

/-- A timer started with `ms`: running in SETTLING and ACTIVE, frozen otherwise (R9). -/
def State.startedTimer (s : State) (ms : Nat) : RetryTimer := if s.runs then .running ms else .frozen ms

/-- A running timer becomes frozen; any other stands (R9). -/
def RetryTimer.freeze : RetryTimer → RetryTimer
  | .running ms => .frozen ms
  | t => t

/-- A frozen timer becomes running; any other stands (R9). -/
def RetryTimer.resume : RetryTimer → RetryTimer
  | .frozen ms => .running ms
  | t => t

/-! ### The queues of the channel -/

/-- What the channel does at an arrival (R32). Work that joins while the channel itself is acting passes `id`: the
measurement in flight, or the search that is running, comes first (log entries 15, 16). -/
abbrev Arrive := State → State

/-- Places a subject in the verify queue (R25): a subject already there keeps its place, any other joins at the tail
and is an arrival. -/
def placeVerify (arr : Arrive) (x : Subject) (s : State) : State :=
  if x ∈ s.chan.verify then s
  else arr { s with chan.verify := s.chan.verify ++ [x] }

/-- Places a subject in the confirm queue (R26), in SETTLING and ACTIVE alone. Placements are made only while a
measurement is in flight, so none starts a search (R32). -/
def placeConfirm (x : Subject) (s : State) : State :=
  if !s.runs || x ∈ s.chan.confirm then s
  else { s with chan.confirm := s.chan.confirm ++ [x] }

/-- Withdraws a subject from the verify queue (R25). -/
def withdrawVerify (x : Subject) (s : State) : State :=
  { s with chan.verify := s.chan.verify.filter (· ≠ x) }

/-- Withdraws a subject from the confirm queue (R26). -/
def withdrawConfirm (x : Subject) (s : State) : State :=
  { s with chan.confirm := s.chan.confirm.filter (· ≠ x) }

/-! ### Completions and the outstanding count -/

/-- A port's outstanding count (R143, R175). -/
def PortState.outstanding (x : PortState) : Nat := x.inFlight + x.completions.length

/-- Hands a completion to the port interface (R143): it joins the list when its session is the port's and the in-flight
count is above 0, and is discarded otherwise. -/
def complete (r : Requester) (o : CompletionOutcome) (s : State) : State :=
  let x := s.port r.port
  if r.session = x.session ∧ 0 < x.inFlight then
    s.setPort r.port
      { x with inFlight := x.inFlight - 1, completions := x.completions ++ [⟨r.tag, r.request, o⟩] }
  else s

/-- Hands on the completion of a requester, where there is one. -/
def completeIfAny (r : Option Requester) (o : CompletionOutcome) (s : State) : State :=
  match r with
  | some r => complete r o s
  | none => s

/-- A requester of the port's present session (R143). -/
def State.requester (s : State) (p : Port) (tag : Byte) (q : Request) : Requester :=
  ⟨p, tag, (s.port p).session, q⟩

/-- A completion of the line's waiting RESTORE, which becomes absent (R13 to R15, R19, R20). -/
def endWaiting (n : LineNo) (o : CompletionOutcome) (s : State) : State :=
  let w := (s.line n).waiting
  completeIfAny w o (s.setLine n { s.line n with waiting := none })

end Sys2Proof.Machine
end

