-- ==== Sys2Proof/Machine/Flags.lean ====
section
/-! DEFINITION. The flags the notification unit computes: eligibility, the counts of a port, the attention latch and
the attention line. -/

namespace Sys2Proof.Machine

/-- The class number of a key (R108). -/
def FaultKey.cls : FaultKey → ClassNo
  | .ampFail _ => 0
  | .noCover _ => 1
  | .lineShort _ => 2
  | .lineOpen _ => 3
  | .earthLeak _ => 4
  | .lineLow _ => 5
  | .lineHigh _ => 6
  | .uncalibrated _ | .blind _ | .storeFault _ | .lowSupply => 7

/-- All classes, highest priority first. -/
def allClasses : List ClassNo := [0, 1, 2, 3, 4, 5, 6, 7]

/-- The record is NEW for the port (R121). -/
def FaultRecord.newFor (r : FaultRecord) (p : Port) : Bool := r.marks.get p

/-- The number of records NEW for a port (R133). -/
def State.newCount (s : State) (p : Port) : Nat := s.faults.records.countP (·.newFor p)

/-- The number of records of one class NEW for a port (R125). -/
def State.newCountOf (s : State) (p : Port) (c : ClassNo) : Nat :=
  s.faults.records.countP fun r => r.newFor p && r.key.cls == c

/-- The lowest class of a set. -/
def ClassSet.lowest (x : ClassSet) : Option ClassNo := allClasses.find? x.has

/-- The in-service set lets a class through: it is empty or the class is below its lowest (R133). -/
def PortState.unblocked (x : PortState) (c : ClassNo) : Bool :=
  match x.inService.lowest with
  | none => true
  | some l => decide (c < l)

/-- Class `c` is eligible for port `p` (R133). -/
def State.eligible (s : State) (p : Port) (c : ClassNo) : Bool :=
  s.faults.records.any (fun r => r.newFor p && r.key.cls == c) && !(s.port p).mask.has c && (s.port p).unblocked c

/-- The lowest eligible class of a port (R133). -/
def State.lowestEligible (s : State) (p : Port) : Option ClassNo := allClasses.find? (s.eligible p)

/-- Some class is eligible for the port. -/
def State.anyEligible (s : State) (p : Port) : Bool := (s.lowestEligible p).isSome

/-- The number of records NEW for a port whose class is blocked by its in-service set (R133). -/
def State.blockedCount (s : State) (p : Port) : Nat :=
  s.faults.records.countP fun r =>
    r.newFor p && !(s.port p).mask.has r.key.cls && !(s.port p).unblocked r.key.cls

/-- The attention line of a port: asserted while its latch is set or its completion list is not empty (R142). -/
def State.attention (s : State) (p : Port) : Bool := (s.port p).latch || !(s.port p).completions.isEmpty

/-- The state with a port's attention latch set or cleared. -/
def State.setLatch (s : State) (p : Port) (v : Bool) : State := s.setPort p { s.port p with latch := v }

/-- Sets the latch of a port for which a class is eligible, and leaves any other as it stands (R130, R137, R140). -/
def signalIfEligible (p : Port) (s : State) : State := if s.anyEligible p then s.setLatch p true else s

/-- Sets the latch of every port for which a class is eligible (R140). -/
def signalAll (s : State) : State := allPorts.foldl (fun s p => signalIfEligible p s) s

/-- Whether a transition of class `c` sets the latch of a port it marked (R139). -/
def State.signalsNow (s : State) (p : Port) (c : ClassNo) : Bool :=
  s.eligible p c &&
    match s.mc.mode with
    | .settling | .active => decide (c.val < (s.port p).urgent)
    | .stopping | .standby => true
    | .loading => false

/-- The notice of a transition of class `c` to one port that the table marked (R139). -/
def noticePort (c : ClassNo) (p : Port) (s : State) : State := if s.signalsNow p c then s.setLatch p true else s

/-- The notice of a transition of class `c` to each port that the table marked (R139). -/
def notice (c : ClassNo) (marked : PerPort Bool) (s : State) : State :=
  allPorts.foldl (fun s p => if marked.get p then noticePort c p s else s) s

end Sys2Proof.Machine
end

