-- ==== Sys2Proof/Machine/FaultTable.lean ====
section
/-! DEFINITION. The fault table: raise, clear, acknowledge, removal and release, each with the notices of R139. -/

namespace Sys2Proof.Machine

/-- The record of a key, if the table holds one. -/
def FaultTable.find (t : FaultTable) (k : FaultKey) : Option FaultRecord := t.records.find? (·.key = k)

/-- The key waits in the deferred list. -/
def FaultTable.defers (t : FaultTable) (k : FaultKey) : Bool := t.deferred.any (·.key = k)

/-- The listening flags of the ports. -/
def State.listeners (s : State) : PerPort Bool := ⟨s.ports.a.listening, s.ports.b.listening, s.ports.m.listening⟩

/-- Marks joined with further marks; a mark that is set stays set (R121). -/
def joinMarks (x y : PerPort Bool) : PerPort Bool := ⟨x.a || y.a, x.b || y.b, x.m || y.m⟩

/-- The record is NEW for some port. -/
def FaultRecord.marked (r : FaultRecord) : Bool := r.marks.a || r.marks.b || r.marks.m

/-- A record that R122 removes: CLOSED and NEW for no port. -/
def FaultRecord.finished (r : FaultRecord) : Bool := r.lifecycle = .closed && !r.marked

/-- The ordered list with the record of `r`'s key, if any, taken out and `r` at the tail (R112). -/
def toTail (r : FaultRecord) (l : List FaultRecord) : List FaultRecord := l.filter (·.key ≠ r.key) ++ [r]

/-- A transition (R111, R112, R121): the record takes the next counter value and the tail, and the ports just marked
have their notices decided (R139). -/
def transition (r : FaultRecord) (marked : PerPort Bool) (s : State) : State :=
  let stamp := s.faults.counter + 1
  notice r.key.cls marked
    { s with
      faults.counter := stamp
      faults.records := toTail { r with stamp := stamp } s.faults.records }

/-- The creation of a record (R113), from a raise or a release. -/
def createRecord (k : FaultKey) (snap : Option Snapshot) (first : Word) (s : State) : State :=
  transition
    { key := k, lifecycle := .activeUnack, occurrences := 1, firstRound := first, stamp := 0, ackPort := none,
      snapshot := snap, marks := s.listeners }
    s.listeners s

/-- A raise that finds the table full (R115). -/
def deferKey (k : FaultKey) (snap : Option Snapshot) (s : State) : State :=
  let d :=
    if s.faults.defers k then
      s.faults.deferred.map fun e => if e.key = k then { e with snapshot := snap } else e
    else s.faults.deferred ++ [⟨k, snap, s.chan.roundNumber⟩]
  { s with faults.deferred := d, faults.full := true }

/-- A raise of a key (R113 to R115). -/
def raise (k : FaultKey) (snap : Option Snapshot) (s : State) : State :=
  match s.faults.find k with
  | some r =>
    match r.lifecycle with
    | .activeUnack | .activeAck => s
    | .clearedUnack | .closed =>
      transition
        { r with
          lifecycle := .activeUnack
          occurrences := min 255 (r.occurrences + 1)
          ackPort := none
          snapshot := snap
          marks := joinMarks r.marks s.listeners }
        s.listeners s
  | none =>
    if s.faults.records.length < tableCapacity then createRecord k snap s.chan.roundNumber s
    else deferKey k snap s

/-- The deferred entry a removal releases: the lowest class, and of that class the oldest (R123). -/
def pickDeferred : List Deferred → Option Deferred
  | [] => none
  | d :: ds =>
    match pickDeferred ds with
    | none => some d
    | some e => if e.key.cls < d.key.cls then some e else some d

/-- The state with a key taken out of the deferred list; TABLE_FULL clears when it empties (R117, R123, R124). -/
def dropDeferred (k : FaultKey) (s : State) : State :=
  let d := s.faults.deferred.filter (·.key ≠ k)
  { s with faults.deferred := d, faults.full := s.faults.full && !d.isEmpty }

/-- The release that follows a removal (R123). -/
def release (s : State) : State :=
  match pickDeferred s.faults.deferred with
  | none => s
  | some d => createRecord d.key d.snapshot d.firstRound (dropDeferred d.key s)

/-- The removal check of one key (R122), with its release. -/
def checkRemoval (k : FaultKey) (s : State) : State :=
  match s.faults.find k with
  | some r =>
    if r.finished then release { s with faults.records := s.faults.records.filter (·.key ≠ k) } else s
  | none => s

/-- A clear of a key (R117). -/
def clear (k : FaultKey) (snap : Option Snapshot) (s : State) : State :=
  match s.faults.find k with
  | some r =>
    match r.lifecycle with
    | .activeUnack =>
      transition
        { r with lifecycle := .clearedUnack, snapshot := snap, marks := joinMarks r.marks s.listeners } s.listeners s
    | .activeAck =>
      checkRemoval k
        (transition
          { r with lifecycle := .closed, snapshot := snap, marks := joinMarks r.marks s.listeners } s.listeners s)
    | .clearedUnack | .closed => s
  | none => if s.faults.defers k then dropDeferred k s else s

/-- The acknowledgement of an unacknowledged record by port `p` (R118); no change to any other. -/
def acknowledge (p : Port) (k : FaultKey) (s : State) : State :=
  match s.faults.find k with
  | some r =>
    let others := s.listeners.set p false
    let marks := (joinMarks r.marks others).set p false
    match r.lifecycle with
    | .activeUnack =>
      checkRemoval k (transition { r with lifecycle := .activeAck, ackPort := some p, marks := marks } others s)
    | .clearedUnack =>
      checkRemoval k (transition { r with lifecycle := .closed, ackPort := some p, marks := marks } others s)
    | .activeAck | .closed => s
  | none => s

/-- The record is unacknowledged (R120, R125). -/
def FaultRecord.unacknowledged (r : FaultRecord) : Bool :=
  r.lifecycle = .activeUnack || r.lifecycle = .clearedUnack

/-- Port `p`'s mark on a record dropped. -/
def FaultRecord.unmark (p : Port) (r : FaultRecord) : FaultRecord := { r with marks := r.marks.set p false }

/-- Port `p`'s mark on the record of key `k` dropped (R134). -/
def dropMark (p : Port) (k : FaultKey) (s : State) : State :=
  { s with faults.records := s.faults.records.map fun r => if r.key = k then r.unmark p else r }

/-- All of port `p`'s marks dropped at once, then the removals they cause, in list order (R121, R122, R131). -/
def dropAllMarks (p : Port) (s : State) : State :=
  let recs := s.faults.records.map (·.unmark p)
  let gone := (recs.filter (·.finished)).map (·.key)
  gone.foldl (fun s k => checkRemoval k s) { s with faults.records := recs }

/-- An alarm is pending: a record of class 0, 1 or 2 unacknowledged, or a deferred key of those classes (R125). -/
def State.alarmPending (s : State) : Bool :=
  s.faults.records.any (fun r => decide (r.key.cls.val ≤ 2) && r.unacknowledged)
    || s.faults.deferred.any (fun d => decide (d.key.cls.val ≤ 2))

end Sys2Proof.Machine
end

