-- ==== Sys2Proof/Machine/Operands.lean ====
section
/-! DEFINITION. The operand forms of commands and replies: the request table, payload fields, fault keys as bytes, the
coding of reply fields, baseline records as bytes, and the clamping of written values. -/

namespace Sys2Proof.Machine

/-! ### The request table (11, "Request codes") -/

end Sys2Proof.Machine

namespace Sys2Proof

/-- Request code. -/
def Request.code : Request → Byte
  | .status => 0x01 | .identify => 0x02 | .readLine => 0x03 | .readAmp => 0x04 | .readRecord => 0x05
  | .listRecords => 0x06 | .readQueue => 0x07
  | .listen => 0x10 | .leave => 0x11 | .setNotify => 0x12 | .fetch => 0x13 | .peek => 0x14 | .done => 0x15
  | .doneClass => 0x16 | .readCompletion => 0x17 | .resetPort => 0x18
  | .ack => 0x20 | .ackAll => 0x21
  | .isolate => 0x30 | .restore => 0x31 | .enableLine => 0x32 | .disableLine => 0x33 | .configureLine => 0x34
  | .learn => 0x35
  | .cover => 0x40 | .returnLines => 0x41 | .enableAmp => 0x42 | .disableAmp => 0x43 | .configureAmp => 0x44
  | .start => 0x50 | .stop => 0x51 | .emergencyOn => 0x52 | .emergencyOff => 0x53 | .configureSystem => 0x54
  | .store => 0x55

/-- Payload length in bytes. -/
def Request.payloadLen : Request → Nat
  | .readLine | .readAmp | .listRecords | .doneClass => 1
  | .readRecord | .setNotify | .ack => 3
  | .isolate | .restore | .enableLine | .disableLine | .learn => 1
  | .configureLine => 21
  | .cover | .returnLines | .enableAmp | .disableAmp => 1
  | .configureAmp => 6
  | .configureSystem => 4
  | .store => 1
  | .status | .identify | .readQueue | .listen | .leave | .fetch | .peek | .done | .readCompletion | .resetPort
  | .ackAll | .start | .stop | .emergencyOn | .emergencyOff => 0

/-- Long requests are answered ACCEPTED, and their outcome comes as a completion. -/
def Request.long : Request → Bool
  | .restore | .learn | .cover | .returnLines | .store => true
  | _ => false

/-- Port M may issue the request. -/
def Request.openToM : Request → Bool
  | .status | .identify | .readLine | .readAmp | .readRecord | .listRecords | .readQueue
  | .listen | .leave | .setNotify | .fetch | .peek | .done | .doneClass | .readCompletion | .resetPort
  | .ack | .ackAll => true
  | _ => false

/-- The request is answered during LOADING (R149, R173). -/
def Request.inLoading : Request → Bool
  | .status | .identify => true
  | _ => false

end Sys2Proof

namespace Sys2Proof.Machine

/-- All requests, in the order of the table. -/
def allRequests : List Request :=
  [.status, .identify, .readLine, .readAmp, .readRecord, .listRecords, .readQueue,
   .listen, .leave, .setNotify, .fetch, .peek, .done, .doneClass, .readCompletion, .resetPort,
   .ack, .ackAll,
   .isolate, .restore, .enableLine, .disableLine, .configureLine, .learn,
   .cover, .returnLines, .enableAmp, .disableAmp, .configureAmp,
   .start, .stop, .emergencyOn, .emergencyOff, .configureSystem, .store]

/-- The code is in the request table. -/
def knownCode (c : Byte) : Bool := allRequests.any fun r => r.code == c

/-- The checks of the port interface, in their order (R173); absent when all pass. The code is known, since the
request has a name. -/
def portRefusal (q : Request) (p : Port) (payload : List Byte) (s : State) : Option ReplyCode :=
  if 32 < payload.length then some .badFrame
  else if payload.length ≠ q.payloadLen then some .badFrame
  else if p = .m ∧ !q.openToM then some .notPermitted
  else if s.mc.mode = .loading ∧ !q.inLoading then some .notRunning
  else if q.long ∧ outstandingLimit ≤ (s.port p).outstanding then some .busy
  else none

/-! ### Payload fields (R171) -/

/-- Byte `i` of a payload. -/
def byteAt (payload : List Byte) (i : Nat) : Nat := (payload.getD i 0).toNat

/-- The two-byte quantity at byte `i`, high byte first. -/
def wordAt (payload : List Byte) (i : Nat) : Nat := byteAt payload i * 256 + byteAt payload (i + 1)

/-- A yes/no field: any nonzero value is yes. -/
def boolAt (payload : List Byte) (i : Nat) : Bool := byteAt payload i != 0

/-- A line number, absent above 15. -/
def lineNo? (v : Nat) : Option LineNo := if h : v < 16 then some ⟨v, h⟩ else none

/-- An amplifier number, absent above 5. -/
def ampNo? (v : Nat) : Option AmpNo := if h : v < 6 then some ⟨v, h⟩ else none

/-- A record number, absent above 22. -/
def recordNo? (v : Nat) : Option RecordNo := if h : v < 23 then some ⟨v, h⟩ else none

/-- A class number, absent above 7. -/
def classNo? (v : Nat) : Option ClassNo := if h : v < 8 then some ⟨v, h⟩ else none

/-- The line a subject byte of a key names: 0x00..0x0F (R171). -/
def keyLine? (v : Nat) : Option LineNo := lineNo? v

/-- The amplifier a subject byte of a key names: 0x10..0x15 (R171). -/
def keyAmp? (v : Nat) : Option AmpNo := if 0x10 ≤ v then ampNo? (v - 0x10) else none

/-- The subject of STORE_FAULT a subject byte names (R108, R171). -/
def keyStore? (v : Nat) : Option StoreSubject :=
  match keyLine? v with
  | some n => some (.line n)
  | none =>
    match keyAmp? v with
    | some k => some (.amp k)
    | none => if v = 0x20 then some .system else none

/-- A fault key from its three numbers; absent where the key is not well formed (R108, R171). -/
def keyOf? (cls subject reason : Nat) : Option FaultKey :=
  match cls, reason with
  | 0, 0 => (keyAmp? subject).map .ampFail
  | 1, 0 => (keyAmp? subject).map .noCover
  | 2, 0 => (keyLine? subject).map .lineShort
  | 3, 0 => (keyLine? subject).map .lineOpen
  | 4, 0 => (keyLine? subject).map .earthLeak
  | 5, 0 => (keyLine? subject).map .lineLow
  | 6, 0 => (keyLine? subject).map .lineHigh
  | 7, 1 => (keyLine? subject).map .uncalibrated
  | 7, 2 => (keyLine? subject).map .blind
  | 7, 3 => (keyStore? subject).map .storeFault
  | 7, 4 => if subject = 0x20 then some .lowSupply else none
  | _, _ => none

/-- The fault key of a payload of three bytes (R171). -/
def keyAt (payload : List Byte) : Option FaultKey := keyOf? (byteAt payload 0) (byteAt payload 1) (byteAt payload 2)

/-- A set of classes from a mask byte: bit c stands for class c (R171, "Request codes"). -/
def classesOfByte (v : Nat) : ClassSet :=
  #v[v.testBit 0, v.testBit 1, v.testBit 2, v.testBit 3, v.testBit 4, v.testBit 5, v.testBit 6, v.testBit 7]

/-! ### Reply fields (R171) -/

/-- A field of one byte. -/
def enc8 (v : Nat) : List Byte := [BitVec.ofNat 8 v]

/-- A field of two bytes, high byte first. -/
def enc16 (v : Nat) : List Byte := [BitVec.ofNat 8 (v / 256), BitVec.ofNat 8 v]

/-- A field of three bytes, high byte first. -/
def enc24 (v : Nat) : List Byte := [BitVec.ofNat 8 (v / 65536), BitVec.ofNat 8 (v / 256), BitVec.ofNat 8 v]

/-- A yes/no field. -/
def encBool (v : Bool) : List Byte := enc8 v.toNat

/-- A deviation: two bytes, signed. -/
def encDev (d : Int) : List Byte := enc16 (BitVec.ofInt 16 d).toNat

/-- An optional field: a presence byte, then the value, sent as `width` zero bytes when the field is absent. -/
def encOpt {α : Type} (width : Nat) (f : α → List Byte) : Option α → List Byte
  | some v => 1#8 :: f v
  | none => 0#8 :: List.replicate width 0#8

/-- A list: its number of entries in one byte, then the entries. -/
def encList {α : Type} (f : α → List Byte) (l : List α) : List Byte := enc8 l.length ++ l.flatMap f

/-- A port: 0 for A, 1 for B, 2 for M. -/
def encPort : Port → List Byte
  | .a => [0]
  | .b => [1]
  | .m => [2]

/-- A set of classes: bit c of one byte. -/
def encClasses (x : ClassSet) : List Byte :=
  enc8 (allClasses.foldl (fun acc c => acc + if x.has c then 2 ^ c.val else 0) 0)

/-- The subject coding of a fault key: lines from 0x00. -/
def encKeyLine (n : LineNo) : List Byte := enc8 n.val

/-- The subject coding of a fault key: amplifiers from 0x10. -/
def encKeyAmp (k : AmpNo) : List Byte := enc8 (0x10 + k.val)

/-- A subject of the verify or confirm queue (R179). -/
def encSubject : Subject → List Byte
  | .line n => encKeyLine n
  | .amp k => encKeyAmp k

/-- The subject of STORE_FAULT. -/
def encStoreSubject : StoreSubject → List Byte
  | .line n => encKeyLine n
  | .amp k => encKeyAmp k
  | .system => enc8 0x20

/-- The subject byte of a key. -/
def FaultKey.encSubject : FaultKey → List Byte
  | .ampFail k | .noCover k => encKeyAmp k
  | .lineShort n | .lineOpen n | .earthLeak n | .lineLow n | .lineHigh n | .uncalibrated n | .blind n => encKeyLine n
  | .storeFault x => encStoreSubject x
  | .lowSupply => enc8 0x20

/-- The reason byte of a key. -/
def FaultKey.reason : FaultKey → Nat
  | .uncalibrated _ => 1
  | .blind _ => 2
  | .storeFault _ => 3
  | .lowSupply => 4
  | _ => 0

/-- A fault key: class, subject, reason. -/
def encKey (k : FaultKey) : List Byte := enc8 k.cls.val ++ k.encSubject ++ enc8 k.reason

/-! #### Enumerated values: their position in the list that defines the field -/

/-- Line states (1.1). -/
def LineState.pos : LineState → Nat
  | .disabled => 0 | .connected => 1 | .isolated => 2 | .probing => 3 | .locked => 4

/-- Selector positions (1.1): HOME, OPEN, BUS0..BUS5, TEST. -/
def Selector.pos : Selector → Nat
  | .home => 0 | .off => 1 | .bus k => 2 + k.val | .test => 8

/-- Isolation causes (1.1). -/
def IsolationCause.pos : IsolationCause → Nat
  | .noCause => 0 | .protective => 1 | .command => 2 | .lockout => 3

/-- Impedance classes (1.1). -/
def LineClass.pos : LineClass → Nat
  | .normal => 0 | .opened => 1 | .short => 2 | .low => 3 | .high => 4

/-- The condition of the retry timer (1.1, R9). -/
def RetryTimer.pos : RetryTimer → Nat
  | .idle => 0 | .running _ => 1 | .frozen _ => 2

/-- The remaining time of the retry timer, 0 when idle (log entry 12). -/
def RetryTimer.ms : RetryTimer → Nat
  | .idle => 0 | .running t => t | .frozen t => t

/-- Confirmed earth states (R59): NORMAL, LEAK. -/
def EarthState.pos : EarthState → Nat
  | .normal => 0 | .leak => 1

/-- Earth candidates (R59): LEAK, NORMAL. -/
def EarthState.candPos : EarthState → Nat
  | .leak => 0 | .normal => 1

/-- Amplifier states, coded in the list of the role (R171). -/
def AmpState.pos (r : Role) : AmpState → Nat
  | .healthy => 0 | .suspect => 1 | .failed => 2 | .covered => 3 | .relieved => 4
  | .free => 0 | .busy => 1 | .faulty => 2
  | .disabled => match r with | .duty => 5 | .standby => 3

end Sys2Proof.Machine

namespace Sys2Proof

/-- Roles (5.1). -/
def Role.pos : Role → Nat
  | .duty => 0 | .standby => 1

end Sys2Proof

namespace Sys2Proof.Machine

/-- Confirmed conditions (R71): NORMAL, FAIL. -/
def Condition.pos : Condition → Nat
  | .normal => 0 | .fail => 1

/-- Debounce candidates of an amplifier (R71): FAIL, NORMAL. -/
def Condition.candPos : Condition → Nat
  | .fail => 0 | .normal => 1

/-- The PROT sample (R71): asserted, clear. -/
def protPos (asserted : Bool) : Nat := if asserted then 0 else 1

/-- Kinds of measurement (R21): LINE, EARTH, AMP. -/
def Target.pos : Target → Nat
  | .line _ => 0 | .earth _ => 1 | .amp _ => 2

/-- The subject of a measurement. -/
def Target.subject : Target → Subject
  | .line n => .line n | .earth n => .line n | .amp k => .amp k

/-- Classes of a measurement (R21): VERIFY, CONFIRM, LEARN, SCAN. -/
def GrantClass.pos : GrantClass → Nat
  | .verify => 0 | .confirm => 1 | .learn => 2 | .scan => 3

/-- The rotation pointer (R33): CONFIRM, LEARN, SCAN. -/
def RotClass.pos : RotClass → Nat
  | .confirm => 0 | .learn => 1 | .scan => 2

/-- COVER, RETURN (R86). -/
def CoKind.pos : CoKind → Nat
  | .cover => 0 | .returnLines => 1

/-- AUTO, MANUAL (R86). -/
def Origin.pos : Origin → Nat
  | .auto => 0 | .manual => 1

/-- MOVING, VERIFYING, MOVING_BACK (R86). -/
def Phase.pos : Phase → Nat
  | .moving => 0 | .verifying => 1 | .movingBack => 2

/-- Lifecycles (R109). -/
def Lifecycle.pos : Lifecycle → Nat
  | .activeUnack => 0 | .activeAck => 1 | .clearedUnack => 2 | .closed => 3

/-- Modes (R148). -/
def Mode.pos : Mode → Nat
  | .loading => 0 | .standby => 1 | .settling => 2 | .active => 3 | .stopping => 4

/-- Supply states (R148). -/
def Supply.pos : Supply → Nat
  | .normal => 0 | .low => 1

/-- Reset causes (R148). -/
def ResetKind.pos : ResetKind → Nat
  | .powerOn => 0 | .brownOut => 1 | .resetPin => 2

/-- Record conditions (R162). -/
def RecordCondition.pos : RecordCondition → Nat
  | .valid => 0 | .defaulted => 1 | .writing => 2 | .writeFailed => 3

/-- Load causes (R162). -/
def LoadCause.pos : LoadCause → Nat
  | .noCause => 0 | .blank => 1 | .badCrc => 2 | .badContent => 3 | .unreadable => 4

/-- The EMERG input (R148): asserted, released. -/
def emergPos (asserted : Bool) : Nat := if asserted then 0 else 1

/-- An emergency flag (R148): set, clear. -/
def flagPos (isSet : Bool) : Nat := if isSet then 0 else 1

/-- Completion outcomes ("Reply and outcome codes", 11). -/
def CompletionOutcome.code : CompletionOutcome → Nat
  | .learnDone => 0x01 | .learnDisturbed => 0x02 | .learnOpen => 0x03 | .learnShort => 0x04 | .learnAborted => 0x05
  | .storeDone => 0x06 | .storeTimeout => 0x07
  | .covered => 0x08 | .returned => 0x09 | .returnFailed => 0x0A
  | .restored => 0x0B | .restoreFailed => 0x0C | .restoreAborted => 0x0D

/-- Reply codes ("Reply and outcome codes", 11). -/
def ReplyCode.code : ReplyCode → Byte
  | .ok => 0x00 | .accepted => 0x01 | .noChange => 0x02 | .clamped => 0x03 | .nothing => 0x04
  | .busy => 0x80 | .notPermitted => 0x81 | .badFrame => 0x82 | .unknownRequest => 0x83
  | .badSubject => 0x84 | .wrongState => 0x85 | .emergency => 0x86 | .notRunning => 0x87
  | .lowSupply => 0x88 | .inUse => 0x89 | .noStandby => 0x8A | .alarmPending => 0x8B

/-- The bytes of a reply on the wire: code, length, payload (R171). -/
def Reply.bytes (r : Reply) : List Byte := r.code.code :: BitVec.ofNat 8 r.payload.length :: r.payload

/-- A reply without payload. -/
def bare (c : ReplyCode) : Reply := ⟨c, []⟩

/-! ### Configurations as bytes (10.2, R163) and the values a request may write -/

/-- The configuration of a line, home amplifier through retry limit, around the coding of its Zref. -/
def encLineAround (zref : List Byte) (c : LineConfig) : List Byte :=
  enc8 c.home.val ++ enc16 c.gain ++ zref ++ enc16 c.low ++ enc16 c.high ++ enc8 c.hyst
    ++ enc16 c.shortFloor ++ enc8 c.shift ++ enc8 c.raiseCount ++ enc8 c.clearCount ++ encBool c.earthCheck
    ++ enc8 c.threshold ++ encBool c.autoRetry ++ enc8 c.retryDelay ++ enc8 c.retryLimit

/-- Bytes 2 to 21 of a line record, with an absent Zref as 0 (10.2). -/
def encLineFields (c : LineConfig) : List Byte := encLineAround (enc16 (c.zref.getD 0)) c

/-- The configuration of a line in a reply (R178), with Zref as an optional field (R171). -/
def encLineReport (c : LineConfig) : List Byte := encLineAround (encOpt 2 enc16 c.zref) c

/-- Bytes 1 to 5 of an amplifier record: role through clear count. -/
def encAmpFields (c : AmpConfig) : List Byte :=
  enc8 c.role.pos ++ enc16 c.amin ++ enc8 c.raiseCount ++ enc8 c.clearCount

/-- Bytes 1 to 4 of the system record. -/
def encSystemFields (c : SystemConfig) : List Byte :=
  enc8 c.earthDivider ++ enc8 c.blindLimit ++ enc8 c.settleRounds ++ encBool c.autostart

/-- A value clamped to the nearest limit of its range (R1). -/
def clampTo (lo hi v : Nat) : Nat := max lo (min hi v)

/-- The line fields of a payload whose fields begin at byte `i`, as carried, before any clamping. -/
def lineFieldsAt (b : List Byte) (i : Nat) (home : AmpNo) (enabled : Bool) : LineConfig where
  enabled := enabled
  home := home
  gain := wordAt b (i + 1)
  zref := if wordAt b (i + 3) = 0 then none else some (wordAt b (i + 3))
  low := wordAt b (i + 5)
  high := wordAt b (i + 7)
  hyst := byteAt b (i + 9)
  shortFloor := wordAt b (i + 10)
  shift := byteAt b (i + 12)
  raiseCount := byteAt b (i + 13)
  clearCount := byteAt b (i + 14)
  earthCheck := boolAt b (i + 15)
  threshold := byteAt b (i + 16)
  autoRetry := boolAt b (i + 17)
  retryDelay := byteAt b (i + 18)
  retryLimit := byteAt b (i + 19)

end Sys2Proof.Machine

namespace Sys2Proof

open Machine in
/-- A line configuration with every numeric field clamped to its range, and then the hysteresis below min(L, H)
(R1). -/
def LineConfig.clamp (c : LineConfig) : LineConfig :=
  let low := clampTo 1 999 c.low
  let high := clampTo 1 9999 c.high
  { c with
    gain := clampTo 1 4095 c.gain
    zref := c.zref.map (clampTo 1 65534)
    low := low
    high := high
    hyst := min (clampTo 0 255 c.hyst) (min low high - 1)
    shortFloor := clampTo 0 65534 c.shortFloor
    shift := clampTo 0 4 c.shift
    raiseCount := clampTo 1 15 c.raiseCount
    clearCount := clampTo 1 15 c.clearCount
    threshold := clampTo 1 127 c.threshold
    retryDelay := clampTo 1 255 c.retryDelay
    retryLimit := clampTo 1 7 c.retryLimit }

open Machine in
/-- An amplifier configuration with Amin and the two counts clamped (R70). -/
def AmpConfig.clamp (c : AmpConfig) : AmpConfig :=
  { c with
    amin := clampTo 1 4095 c.amin
    raiseCount := clampTo 1 15 c.raiseCount
    clearCount := clampTo 1 15 c.clearCount }

open Machine in
/-- System settings with every numeric field clamped (R180). -/
def SystemConfig.clamp (c : SystemConfig) : SystemConfig :=
  { c with
    earthDivider := clampTo 1 16 c.earthDivider
    blindLimit := clampTo 1 255 c.blindLimit
    settleRounds := clampTo 1 15 c.settleRounds }

end Sys2Proof

namespace Sys2Proof.Machine

/-- The amplifier fields of a payload whose fields begin at byte `i`; a role other than 0 is STANDBY (R70). -/
def ampFieldsAt (b : List Byte) (i : Nat) (enabled : Bool) : AmpConfig where
  role := if byteAt b i = 0 then .duty else .standby
  amin := wordAt b (i + 1)
  raiseCount := byteAt b (i + 3)
  clearCount := byteAt b (i + 4)
  enabled := enabled

/-- The system fields of a payload whose fields begin at byte `i`. -/
def systemFieldsAt (b : List Byte) (i : Nat) : SystemConfig where
  earthDivider := byteAt b i
  blindLimit := byteAt b (i + 1)
  settleRounds := byteAt b (i + 2)
  autostart := boolAt b (i + 3)

/-! ### Requests -/

/-- The reply of a request to its port (R172). -/
def State.answer (s : State) (p : Port) (r : Reply) : State := s.setPort p { s.port p with reply := some r }

/-- A request is taken: no frame runs while a reset is in force (R172); the checks of R173 refuse it or the owning block
acts and returns the reply. -/
def takeRequest (q : Request) (p : Port) (payload : List Byte) (act : State → State × Reply) (s : State) :
    Host.Outcome State Fault Refusal :=
  if s.mc.resetInForce.isSome then .next s
  else
    match portRefusal q p payload s with
    | some c => .next (s.answer p (bare c))
    | none => .next ((act s).1.answer p (act s).2)

/-- A block accepts a long request of port `p`: the in-flight count rises and the reply carries the outstanding count
(R143, R174, R175). -/
def accept (p : Port) (s : State) : State × Reply :=
  let x := s.port p
  let s := s.setPort p { x with inFlight := x.inFlight + 1 }
  (s, ⟨.accepted, enc8 (s.port p).outstanding⟩)

/-- An event of the part itself is taken: none reaches a block while a reset is in force (R160). -/
def takeEvent (act : State → State) (s : State) : Host.Outcome State Fault Refusal :=
  if s.mc.resetInForce.isSome then .next s else .next (act s)

end Sys2Proof.Machine
end

