-- ==== Sys2Proof/Machine/LineOps.lean ====
section
/-! DEFINITION. The shared operations of the line supervisor: selector orders, moves of lines, the end of a learn job,
retry timers, probes, class changes and protective isolation. -/

namespace Sys2Proof.Machine

/-! ### Learning (R58) -/

/-- The end of the learn job with an outcome (R58): the accumulator becomes absent, the channel holds no job, a sample
in flight is discarded at its completion, and the completion goes to the issuing port. -/
def endLearn (o : CompletionOutcome) (s : State) : State :=
  match s.chan.job with
  | none => s
  | some j =>
    let s := s.setLine j.line { s.line j.line with learn := none }
    let s :=
      { s with
        chan.job := none
        chan.inFlight := s.chan.inFlight.map fun m => if m.cls = .learn then { m with orphan := true } else m }
    complete j.requester o s

/-- The learn job of one line, if it is the job's line, ends LEARN_ABORTED (R58). -/
def abortLearnOf (n : LineNo) (s : State) : State :=
  match s.chan.job with
  | some j => if j.line = n then endLearn .learnAborted s else s
  | none => s

/-! ### Selector orders and moves (R5, R7) -/

/-- An order to move the selector of a line (R5). An order for the position held or being moved to is no change.
Otherwise a relay operation starts, superseding one in progress, the epoch advances, and a learn job on the line ends
(R58). -/
def orderSelector (n : LineNo) (pos : Selector) (s : State) : State :=
  let l := s.line n
  if l.selector = pos then s
  else
    let s := s.setLine n { l with selector := pos, relayLeft := some relayMs, epoch := l.epoch + 1 }
    abortLearnOf n { s with move := s.move.map (·.filter (· ≠ n)) }

/-- One line of a move (R7): its current amplifier becomes `y`, and a CONNECTED line's selector is ordered to its bus. -/
def moveLine (y : AmpNo) (s : State) (n : LineNo) : State :=
  let s := s.setLine n { s.line n with current := y }
  if (s.line n).state = .connected then orderSelector n (.bus y) s else s

/-- The move of every line whose current amplifier is `x` to `y` (R7). It becomes the move that is waited for: the lines
whose relay operation it has started. -/
def moveLines (x y : AmpNo) (s : State) : State :=
  let moved := allLines.filter fun n => (s.line n).current = x
  let started := moved.filter fun n => (s.line n).state = .connected ∧ (s.line n).selector ≠ .bus y
  { moved.foldl (moveLine y) s with move := some started }

/-! ### Retry timers and probes (R9 to R11) -/

/-- Starts a line's retry timer with the full delay (R9), if auto retry is on and the count below the limit (R8, R20). -/
def startRetry (n : LineNo) (s : State) : State :=
  let l := s.line n
  if l.cfg.autoRetry ∧ l.retryCount < l.cfg.retryLimit then
    s.setLine n { l with timer := s.startedTimer l.fullDelay }
  else s

/-- Every line's record changed by `f`. -/
def State.mapLines (s : State) (f : Line → Line) : State := { s with lines := s.lines.map f }

/-- The start of a probe (R11). -/
def startProbe (arr : Arrive) (n : LineNo) (s : State) : State :=
  let s := orderSelector n .test s
  let s :=
    s.setLine n
      { s.line n with
        state := .probing, cause := .noCause, zf := none, deviation := none, passCount := 0, timer := .idle,
        probeDue := false }
  placeVerify arr (.line n) s

/-- The probe of every line with probe due starts, in line number order (R10). -/
def startDueProbes (arr : Arrive) (s : State) : State :=
  allLines.foldl (fun s n => if (s.line n).probeDue then startProbe arr n s else s) s

/-! ### Fault records of a line -/

/-- The fault key of a confirmed class of a line (R50); none for NORMAL. -/
def classKey (n : LineNo) : LineClass → Option FaultKey
  | .normal => none
  | .opened => some (.lineOpen n)
  | .short => some (.lineShort n)
  | .low => some (.lineLow n)
  | .high => some (.lineHigh n)

/-- The detail snapshot of a line at the moment (R50, R110). -/
def Line.snapshot (l : Line) : Option Snapshot := some (.impedance l.zf l.deviation)

/-- The earth detail snapshot of a line (R66). -/
def Line.earthSnapshot (l : Line) : Option Snapshot := l.lastLc.map fun lc => .earth lc (earthEstimate lc)

/-- The raise of a class is held while the mode is SETTLING: OPEN, LOW and HIGH (R51). -/
def State.holdsClass (s : State) (c : LineClass) : Bool :=
  s.mc.mode = .settling && (c = .opened || c = .low || c = .high)

/-- Clears the record of a class of a line, if it is a fault class (R50). -/
def clearClass (n : LineNo) (c : LineClass) (s : State) : State :=
  match classKey n c with
  | some k => clear k (s.line n).snapshot s
  | none => s

/-- Raises the record of a class of a line, if it is a fault class and not held (R50, R51). -/
def raiseClass (n : LineNo) (c : LineClass) (s : State) : State :=
  match classKey n c with
  | some k => if s.holdsClass c then s else raise k (s.line n).snapshot s
  | none => s

/-- The clears and raises of a confirmed change from `old` to `new` (R50). -/
def sendClassChange (n : LineNo) (old new : LineClass) (s : State) : State := raiseClass n new (clearClass n old s)

/-- Protective isolation with the confirmed change that causes it (R8). -/
def isolateProtectively (n : LineNo) (old : LineClass) (s : State) : State :=
  let s := orderSelector n .off s
  let s := s.setLine n { s.line n with state := .isolated, cause := .protective }
  let s := withdrawConfirm (.line n) s
  startRetry n (sendClassChange n old .short s)

/-- The confirmed change of R50 that a debounce step makes, from `old` to the class the line now holds. -/
def confirmedChange (n : LineNo) (old : LineClass) (s : State) : State :=
  let new := (s.line n).confirmed
  if new = .short ∧ (s.line n).state = .connected then isolateProtectively n old s
  else sendClassChange n old new s

/-- The end of a probe that leaves the line ISOLATED: selector to OPEN, the cause given, pass count 0. -/
def endProbe (n : LineNo) (cause : IsolationCause) (s : State) : State :=
  let s := orderSelector n .off s
  s.setLine n { s.line n with state := .isolated, cause := cause, passCount := 0 }

/-- The debounce of a line's impedance dropped: no candidate, count 0. -/
def dropDebounce (n : LineNo) (s : State) : State := s.setLine n { s.line n with candidate := none, count := 0 }

end Sys2Proof.Machine
end

