-- ==== Sys2Proof/Machine/Changeover.lean ====
section
/-! DEFINITION. The changeover unit: the queue and its order, the standby pool, grants, the end of an operation, and what
a finished move and a verify result do; with the entry to STANDBY that the end of an operation may cause. -/

namespace Sys2Proof.Machine

/-! ### The entry to STANDBY (R154, R155) -/

/-- Mode control enters STANDBY (R155): running timers become frozen, then the ports are signalled (R140). -/
def enterStandby (s : State) : State :=
  signalAll ({ s with mc.mode := .standby }.mapLines fun l => { l with timer := l.timer.freeze })

/-- Mode control's check for the end of stopping (R154): nothing measured and nothing operated on. -/
def checkStopped (s : State) : State :=
  if s.mc.mode = .stopping ∧ s.chan.inFlight.isNone ∧ s.co.op.isNone then enterStandby s else s

/-! ### Amplifier states (R73) -/

/-- An amplifier's state changed, which moves its stamp; the state it has already moves nothing (R73). -/
def setAmpState (k : AmpNo) (st : AmpState) (s : State) : State :=
  let x := s.amp k
  if x.state = st then s else s.setAmp k { x with state := st, stamp := x.stamp + 1 }

/-- A standby's covered amplifier made absent. -/
def dropCovered (k : AmpNo) (s : State) : State := s.setAmp k { s.amp k with coveredAmp := none }

/-- A duty amplifier's covering standby and cover sequence made absent. -/
def dropCover (k : AmpNo) (s : State) : State := s.setAmp k { s.amp k with coveringStandby := none, coverSeq := none }

/-- A duty amplifier's carrying amplifier set. -/
def setCarrying (d y : AmpNo) (s : State) : State := s.setAmp d { s.amp d with carrying := y }

/-- FAIL recorded on an amplifier from a failed verify (R82). -/
def recordVerifyFail (k : AmpNo) (ac : Code) (prot : Bool) (s : State) : State :=
  let s :=
    s.setAmp k
      { s.amp k with condition := .fail, candidate := none, count := 0, lastAc := some ac, lastProt := some prot }
  raise (.ampFail k) (some (.amp ac prot)) (withdrawConfirm (.amp k) s)

/-! ### Queue and pool (R87, R88) -/

/-- An entry `x` stands before an entry `y` in the queue's order (R87): AUTO first, then ascending sequence. -/
def CoEntry.before (x y : CoEntry) : Bool :=
  if x.origin = y.origin then decide (x.seq.toNat < y.seq.toNat) else x.origin = .auto

/-- An entry put in its place (R87). -/
def insertEntry (e : CoEntry) : List CoEntry → List CoEntry
  | [] => [e]
  | x :: xs => if e.before x then e :: x :: xs else x :: insertEntry e xs

/-- The queued entry of a duty amplifier. -/
def Changeover.entryOf (c : Changeover) (d : AmpNo) : Option CoEntry := c.queue.find? (·.duty = d)

/-- `d` is the duty amplifier of the operation in flight. -/
def Changeover.operatesOn (c : Changeover) (d : AmpNo) : Bool := c.op.any (·.duty = d)

/-- The entry of a duty amplifier taken out of the queue. -/
def removeEntry (d : AmpNo) (s : State) : State := { s with co.queue := s.co.queue.filter (·.duty ≠ d) }

/-- An entry joins the queue. -/
def joinEntry (e : CoEntry) (s : State) : State := { s with co.queue := insertEntry e s.co.queue }

/-- A queued entry replaced by a changed one, at the position the order gives it (R87). -/
def replaceEntry (e : CoEntry) (s : State) : State := joinEntry e (removeEntry e.duty s)

/-- A new sequence number taken from the counter (R87). -/
def takeSeq (s : State) : Word × State := (s.co.seqCounter, { s with co.seqCounter := s.co.seqCounter + 1 })

/-- Some duty amplifier names `x` as its carrying amplifier (R88). -/
def State.carries (s : State) (x : AmpNo) : Bool :=
  allAmps.any fun d => (s.amp d).cfg.role = .duty && (s.amp d).carrying = x

/-- Standby `x` is grantable to a cover of `d` (R88). -/
def State.grantable (s : State) (d x : AmpNo) : Bool :=
  (s.amp x).cfg.role = .standby && (s.amp x).state = .free && ((s.amp d).carrying = x || !s.carries x)

/-- The lowest-numbered standby grantable to `d` (R88). -/
def State.chosenStandby (s : State) (d : AmpNo) : Option AmpNo := allAmps.find? (s.grantable d)

/-- NO_COVER raised for `d` if it has an AUTO COVER entry and no standby is grantable to it (R90). -/
def raiseNoCover (d : AmpNo) (s : State) : State :=
  match s.co.entryOf d with
  | some e =>
    if e.kind = .cover ∧ e.origin = .auto ∧ (s.chosenStandby d).isNone then raise (.noCover d) none s else s
  | none => s

/-! ### Grants (R91, R92, R98) -/

/-- Whether an entry qualifies for a grant (R91). -/
def State.qualifies (s : State) (e : CoEntry) : Bool :=
  match e.kind, e.origin with
  | .cover, .auto => (s.chosenStandby e.duty).isSome
  | .returnLines, .auto => true
  | .cover, .manual => !s.emergency && (s.chosenStandby e.duty).isSome
  | .returnLines, .manual => !s.emergency

/-- The amplifier that the operation verifies: s of a cover, d of a return (R93, R98). -/
def Operation.verified (o : Operation) : AmpNo :=
  match o.kind with
  | .cover => o.standby
  | .returnLines => o.duty

/-- The phase of the operation in flight set. -/
def setPhase (ph : Phase) (s : State) : State := { s with co.op := s.co.op.map fun o => { o with phase := ph } }

/-- The move is done in phase MOVING (R93, R98): the phase becomes VERIFYING and the verify is asked for. -/
def beginVerify (arr : Arrive) (o : Operation) (s : State) : State :=
  placeVerify arr (.amp o.verified) (setPhase .verifying s)

/-- After a grant's move (R92, R98): a move that started no relay operation is done at once. -/
def afterGrantMove (arr : Arrive) (o : Operation) (s : State) : State :=
  if s.move = some [] then beginVerify arr o { s with move := none } else s

/-- The grant of a COVER entry to standby `x` (R92). -/
def grantCover (arr : Arrive) (e : CoEntry) (x : AmpNo) (s : State) : State :=
  let o : Operation :=
    { kind := .cover, duty := e.duty, standby := x, origin := e.origin, requester := e.requester, seq := e.seq,
      resumeSeq := none, phase := .moving }
  let s := { removeEntry e.duty s with co.op := some o }
  let s := setAmpState x .busy s
  let s := s.setAmp x { s.amp x with coveredAmp := some e.duty }
  let s := clear (.noCover e.duty) none s
  let s := setCarrying e.duty x (moveLines (s.amp e.duty).carrying x s)
  afterGrantMove arr o s

/-- The grant of a RETURN entry (R98). -/
def grantReturn (arr : Arrive) (e : CoEntry) (s : State) : State :=
  let d := s.amp e.duty
  let o : Operation :=
    { kind := .returnLines, duty := e.duty, standby := d.carrying, origin := e.origin, requester := e.requester,
      seq := e.seq, resumeSeq := some (d.coverSeq.getD e.seq), phase := .moving }
  let s := { removeEntry e.duty s with co.op := some o }
  let s := setCarrying e.duty e.duty (moveLines d.carrying e.duty s)
  afterGrantMove arr o s

/-- The grant of one entry that qualifies. -/
def grantEntry (arr : Arrive) (e : CoEntry) (s : State) : State :=
  match e.kind with
  | .cover =>
    match s.chosenStandby e.duty with
    | some x => grantCover arr e x s
    | none => s
  | .returnLines => grantReturn arr e s

/-- A grant attempt (R91): none while an operation is in flight or outside SETTLING and ACTIVE; otherwise the first
entry in list order that qualifies. -/
def grantAttempt (arr : Arrive) (s : State) : State :=
  if s.co.op.isSome ∨ !s.runs then s
  else
    match s.co.queue.find? s.qualifies with
    | some e => grantEntry arr e s
    | none => s

/-! ### The end of an operation (R91) -/

/-- The operation ends: its completion if it has an outcome, the record none, the entry that joins, and then a grant
attempt or mode control's check (R91). -/
def endOperation (arr : Arrive) (outcome : Option CompletionOutcome) (rejoin : State → State) (s : State) : State :=
  let s :=
    match outcome with
    | some o => completeIfAny (s.co.op.bind (·.requester)) o s
    | none => s
  let s := rejoin { s with co.op := none }
  if s.mc.mode = .stopping then checkStopped s else grantAttempt arr s

/-- An AUTO COVER entry of `d` joins with a given sequence and requester, and NO_COVER is raised as R90 requires. -/
def rejoinAutoCover (d : AmpNo) (seq : Word) (req : Option Requester) (s : State) : State :=
  raiseNoCover d (joinEntry ⟨d, .cover, .auto, req, seq⟩ s)

/-- What the failed cover of `o` re-queues, by the state of its duty amplifier (R97). -/
def rejoinFailedCover (o : Operation) (s : State) : State :=
  let d := s.amp o.duty
  match d.state, d.condition, o.requester with
  | .failed, .fail, r => rejoinAutoCover o.duty o.seq r s
  | .failed, .normal, some r =>
    clear (.noCover o.duty) none
      (setAmpState o.duty .healthy (joinEntry ⟨o.duty, .cover, .manual, some r, o.seq⟩ s))
  | .failed, .normal, none => clear (.noCover o.duty) none (setAmpState o.duty .healthy s)
  | .healthy, _, r => joinEntry ⟨o.duty, .cover, .manual, r, o.seq⟩ s
  | .suspect, _, r => joinEntry ⟨o.duty, .cover, .manual, r, o.seq⟩ s
  | _, _, _ => s

/-- What a failed return of `o` joins: an AUTO COVER with the resume sequence, without requester (R100, R101). -/
def rejoinFailedReturn (o : Operation) (s : State) : State :=
  rejoinAutoCover o.duty (o.resumeSeq.getD o.seq) none s

/-- The move of the operation in flight is done (R93, R97, R98, R101). -/
def moveDone (arr : Arrive) (s : State) : State :=
  match s.co.op with
  | none => s
  | some o =>
    match o.phase, o.kind with
    | .moving, _ => beginVerify arr o s
    | .verifying, _ => s
    | .movingBack, .cover => endOperation arr none (rejoinFailedCover o) s
    | .movingBack, .returnLines =>
      endOperation arr (some .returnFailed)
        (fun t => if (t.amp o.duty).state = .failed then rejoinFailedReturn o t else t) s

/-- The line supervisor's report of a move that has just become done (R7). -/
def reportMove (arr : Arrive) (s : State) : State :=
  if s.move = some [] then moveDone arr { s with move := none } else s

/-- The lines on `x` go to `y`, the carrying amplifier of `d` follows, and the phase becomes MOVING_BACK (R95, R96,
R100). -/
def moveBack (arr : Arrive) (d x y : AmpNo) (s : State) : State :=
  reportMove arr (setPhase .movingBack (setCarrying d y (moveLines x y s)))

/-! ### Verify results (R93 to R95, R99, R100) -/

/-- The cover verify passes (R94). -/
def coverPass (arr : Arrive) (o : Operation) (s : State) : State :=
  let s :=
    match (s.amp o.duty).state with
    | .failed => setAmpState o.duty .covered s
    | .healthy | .suspect => setAmpState o.duty .relieved s
    | _ => s
  let s := s.setAmp o.duty { s.amp o.duty with coveringStandby := some o.standby, coverSeq := some o.seq }
  endOperation arr (some .covered) id s

/-- The cover verify fails (R95). -/
def coverFail (arr : Arrive) (o : Operation) (ac : Code) (prot : Bool) (s : State) : State :=
  let s := dropCovered o.standby (setAmpState o.standby .faulty s)
  moveBack arr o.duty o.standby o.duty (recordVerifyFail o.standby ac prot s)

/-- Standby `x` is BUSY with covered amplifier `d`. -/
def State.busyFor (s : State) (x d : AmpNo) : Bool := (s.amp x).state = .busy && (s.amp x).coveredAmp = some d

/-- A standby BUSY with `d` becomes FREE; any other stands (R99). -/
def freeStandby (x d : AmpNo) (s : State) : State :=
  if s.busyFor x d then dropCovered x (setAmpState x .free s) else s

/-- The return verify passes (R99). -/
def returnPass (arr : Arrive) (o : Operation) (s : State) : State :=
  let s := dropCover o.duty (setAmpState o.duty .healthy s)
  endOperation arr (some .returned) id (freeStandby o.standby o.duty s)

/-- The return verify fails (R100). -/
def returnFail (arr : Arrive) (o : Operation) (ac : Code) (prot : Bool) (s : State) : State :=
  let s := recordVerifyFail o.duty ac prot s
  if s.busyFor o.standby o.duty then
    let s := if (s.amp o.duty).state = .relieved then setAmpState o.duty .covered s else s
    moveBack arr o.duty o.duty o.standby s
  else
    let s := dropCover o.duty (setAmpState o.duty .failed s)
    endOperation arr (some .returnFailed) (rejoinFailedReturn o) s

/-- The changeover unit still waits for the verify of amplifier `k` (R37, R93). -/
def State.awaitsVerify (s : State) (k : AmpNo) : Bool :=
  s.co.op.any fun o => o.phase = .verifying && o.verified = k

/-- A VERIFY AMP result of amplifier `k` is taken by the unit (R93, R99). -/
def takeVerify (arr : Arrive) (k : AmpNo) (ac : Code) (overrange prot : Bool) (s : State) : State :=
  match s.co.op with
  | none => s
  | some o =>
    if !s.awaitsVerify k then s
    else if overrange then placeVerify arr (.amp k) s
    else
      let normal := normalReading (s.amp k).cfg.amin ac prot
      match o.kind with
      | .cover => if normal then coverPass arr o s else coverFail arr o ac prot s
      | .returnLines =>
        if normal ∧ (s.amp o.duty).condition = .normal then returnPass arr o s else returnFail arr o ac prot s

/-! ### Requests of the amplifier supervisor (R89, R96) -/

/-- After a request or a change in place: NO_COVER as R90 requires, then a grant attempt (R89). -/
def afterRequest (arr : Arrive) (d : AmpNo) (s : State) : State := grantAttempt arr (raiseNoCover d s)

/-- An entry's sequence: the one carried, or a new one (R89). -/
def seqOr (carried : Option Word) (s : State) : Word × State :=
  match carried with
  | some q => (q, s)
  | none => takeSeq s

/-- An AUTO COVER of `d` is asked for (R89). -/
def askAutoCover (arr : Arrive) (d : AmpNo) (carried : Option Word) (s : State) : State :=
  if s.co.operatesOn d then { s with co.op := s.co.op.map fun o => { o with origin := .auto } }
  else
    match s.co.entryOf d with
    | some e => afterRequest arr d (replaceEntry { e with kind := .cover, origin := .auto } s)
    | none =>
      let (q, s) := seqOr carried s
      afterRequest arr d (joinEntry ⟨d, .cover, .auto, none, q⟩ s)

/-- An AUTO RETURN of `d` is asked for (R89). -/
def askAutoReturn (arr : Arrive) (d : AmpNo) (carried : Option Word) (s : State) : State :=
  if s.co.operatesOn d then s
  else
    match s.co.entryOf d with
    | some _ => grantAttempt arr s
    | none =>
      let (q, s) := seqOr carried s
      afterRequest arr d (joinEntry ⟨d, .returnLines, .auto, none, q⟩ s)

/-- The standby of the cover in flight has failed by its own readings, in phase MOVING or VERIFYING (R96). -/
def coverLostInFlight (arr : Arrive) (o : Operation) (s : State) : State :=
  moveBack arr o.duty o.standby o.duty (withdrawVerify (.amp o.standby) s)

end Sys2Proof.Machine
end

