-- ==== Sys2Proof/Machine/AmpOps.lean ====
section
/-! DEFINITION. The amplifier supervisor's readings: judgement, debounce, SUSPECT, and what a confirmed FAIL or NORMAL
does (R74 to R81). -/

namespace Sys2Proof.Machine

/-- A covering standby has failed and its duty amplifier `d` loses its cover (R80). -/
def loseCover (arr : Arrive) (d : AmpNo) (s : State) : State :=
  let seq := (s.amp d).coverSeq
  let st := (s.amp d).state
  let s := dropCover d s
  match st with
  | .covered => askAutoCover arr d seq (setAmpState d .failed s)
  | .relieved => askAutoReturn arr d seq (setAmpState d .healthy s)
  | _ => s

/-- The cover operation in flight that standby `x` was granted to and has not been given up (R96). -/
def State.coverInFlight (s : State) (x : AmpNo) : Option Operation :=
  s.co.op.filter fun o => o.kind = .cover && o.standby = x && o.phase != .movingBack

/-- A standby whose FAIL is confirmed, after its raise (R79, R80, R96). -/
def standbyFails (arr : Arrive) (x : AmpNo) (s : State) : State :=
  let covered := if (s.amp x).state = .busy then (s.amp x).coveredAmp else none
  let s := dropCovered x (setAmpState x .faulty s)
  match covered, s.coverInFlight x with
  | none, _ => s
  | some _, some o => coverLostInFlight arr o s
  | some d, none => loseCover arr d s

/-- A duty amplifier whose FAIL is confirmed, after its raise (R78). -/
def dutyFails (arr : Arrive) (d : AmpNo) (s : State) : State :=
  match (s.amp d).state with
  | .healthy | .suspect => askAutoCover arr d none (setAmpState d .failed s)
  | .relieved => setAmpState d .covered s
  | .failed =>
    match s.co.entryOf d with
    | some e =>
      if e.kind = .returnLines then afterRequest arr d (replaceEntry { e with kind := .cover, origin := .auto } s)
      else s
    | none => s
  | _ => s

/-- The confirmed FAIL of an amplifier (R78, R79). -/
def confirmFail (arr : Arrive) (k : AmpNo) (snap : Option Snapshot) (s : State) : State :=
  let s := raise (.ampFail k) snap s
  match (s.amp k).cfg.role with
  | .duty => dutyFails arr k s
  | .standby => standbyFails arr k s

/-- A FAILED duty amplifier that has recovered with a queued COVER entry (R81). -/
def recoverQueued (arr : Arrive) (k : AmpNo) (e : CoEntry) (s : State) : State :=
  let s :=
    if (s.amp k).carrying = k then
      let s := setAmpState k .healthy s
      match e.requester with
      | some _ => replaceEntry { e with origin := .manual } s
      | none => removeEntry k s
    else replaceEntry { e with kind := .returnLines, origin := .auto } s
  afterRequest arr k (clear (.noCover k) none s)

/-- The confirmed NORMAL of an amplifier (R81). -/
def confirmNormal (arr : Arrive) (k : AmpNo) (snap : Option Snapshot) (s : State) : State :=
  let s := clear (.ampFail k) snap s
  match (s.amp k).state with
  | .faulty => grantAttempt arr (setAmpState k .free s)
  | .failed =>
    if s.co.operatesOn k then s
    else
      match s.co.entryOf k with
      | some e => if e.kind = .cover then recoverQueued arr k e s else s
      | none => s
  | _ => s

/-- Into SUSPECT or out of it, as a debounce step leaves a duty amplifier (R77). -/
def stepSuspect (k : AmpNo) (s : State) : State :=
  let x := s.amp k
  if x.state = .healthy ∧ x.candidate = some .fail then setAmpState k .suspect s
  else if x.state = .suspect ∧ x.count = 0 then setAmpState k .healthy s
  else s

/-- The amplifier joins the confirm queue if its debounce count is above 0 (R75). -/
def placeAmpIfCounting (k : AmpNo) (s : State) : State :=
  if 0 < (s.amp k).count then placeConfirm (.amp k) s else s

/-- A SCAN or CONFIRM AMP result is taken (R75). -/
def ampReading (arr : Arrive) (k : AmpNo) (ac : Code) (overrange prot : Bool) (s : State) : State :=
  let x := s.amp k
  if x.state = .disabled then s
  else if overrange then placeAmpIfCounting k s
  else
    let inst : Condition := if normalReading x.cfg.amin ac prot then .normal else .fail
    let d := debounce x.condition x.candidate x.count (requiredCondition x.cfg) inst
    let s :=
      s.setAmp k
        { x with
          lastAc := some ac, lastProt := some prot, condition := d.confirmed, candidate := d.candidate,
          count := d.count }
    let snap := some (Snapshot.amp ac prot)
    let s :=
      if d.changed then
        match d.confirmed with
        | .fail => confirmFail arr k snap s
        | .normal => confirmNormal arr k snap s
      else stepSuspect k s
    placeAmpIfCounting k s

end Sys2Proof.Machine
end

