-- ==== Sys2Proof/Machine/Readings.lean ====
section
/-! DEFINITION. What the line supervisor and the earth monitor do with a result that is about a line: classification and
probe readings, learn samples, earth readings (R12 to R14, R41 to R67). -/

namespace Sys2Proof.Machine

/-! ### Classification readings (R41 to R53) -/

/-- The raise of SUPERVISOR/BLIND after a masked reading (R53), held in SETTLING (R51). -/
def raiseBlind (n : LineNo) (s : State) : State :=
  if s.mc.sys.blindLimit ≤ (s.line n).masked ∧ s.mc.mode ≠ .settling then raise (.blind n) none s else s

/-- A masked classification or probe reading steps the masked count (R52, R53). -/
def maskedStep (n : LineNo) (s : State) : State :=
  raiseBlind n (s.setLine n { s.line n with masked := min 255 ((s.line n).masked + 1) })

/-- The first usable reading after masked ones clears SUPERVISOR/BLIND and the masked count (R53). -/
def usableStep (n : LineNo) (s : State) : State :=
  if 0 < (s.line n).masked then
    let s := clear (.blind n) none s
    s.setLine n { s.line n with masked := 0 }
  else s

/-- The line joins the confirm queue while a confirmation train runs on it (R49). -/
def placeLineIfCounting (n : LineNo) (s : State) : State :=
  if (s.line n).state = .connected ∧ 0 < (s.line n).count then placeConfirm (.line n) s else s

/-- Raw Z, Zf and deviation from a usable reading (R42, R43, R45). -/
def Line.measured (l : Line) (vc ic : Code) : Line :=
  let z := rawImpedance vc ic l.cfg.gain
  let zf := filterZ l.zf l.cfg.shift z
  { l with rawZ := some z, zf := some zf, deviation := deviationOf l.cfg.zref (some zf) }

/-- The debounce step of a line whose Zf and deviation are new (R46 to R48). -/
def Line.stepClass (l : Line) : Debounce LineClass :=
  debounce l.confirmed l.candidate l.count (requiredCount l.cfg)
    (instantClass l.cfg l.confirmed (l.zf.getD openZ) l.deviation)

/-- A classification reading of a CONNECTED line (R41). -/
def classificationReading (n : LineNo) (vc ic : Code) (overrange : Bool) (s : State) : State :=
  if (s.line n).state ≠ .connected then s
  else if overrange then placeLineIfCounting n (maskedStep n s)
  else
    let old := (s.line n).confirmed
    let l := (s.line n).measured vc ic
    let d := l.stepClass
    let s := s.setLine n { l with confirmed := d.confirmed, candidate := d.candidate, count := d.count }
    let s := if d.changed then confirmedChange n old s else s
    placeLineIfCounting n (usableStep n s)

/-! ### Probe readings (R12 to R14) -/

/-- Probe success (R13). -/
def probeSucceeds (n : LineNo) (s : State) : State :=
  let s := orderSelector n (.bus (s.line n).current) s
  let old := (s.line n).confirmed
  let s :=
    s.setLine n
      { s.line n with
        state := .connected, cause := .noCause, retryCount := 0, passCount := 0, confirmed := .normal }
  endWaiting n .restored (dropDebounce n (clearClass n old s))

/-- Probe failure (R14). -/
def probeFails (n : LineNo) (s : State) : State :=
  let s := endProbe n .protective s
  let s := s.setLine n { s.line n with retryCount := (s.line n).retryCount + 1 }
  let old := (s.line n).confirmed
  let s :=
    if old = .short then s
    else sendClassChange n old .short (s.setLine n { s.line n with confirmed := .short })
  let s := endWaiting n .restoreFailed (dropDebounce n s)
  let l := s.line n
  if l.cfg.retryLimit ≤ l.retryCount then s.setLine n { l with state := .locked, cause := .lockout, timer := .idle }
  else startRetry n s

/-- A passing probe reading (R12). -/
def probePasses (arr : Arrive) (n : LineNo) (s : State) : State :=
  let s := s.setLine n { s.line n with passCount := (s.line n).passCount + 1 }
  if (s.line n).cfg.clearCount ≤ (s.line n).passCount then probeSucceeds n s else placeVerify arr (.line n) s

/-- A probe reading of a PROBING line (R12). -/
def probeReading (arr : Arrive) (n : LineNo) (vc ic : Code) (overrange : Bool) (s : State) : State :=
  if (s.line n).state ≠ .probing then s
  else if overrange then placeVerify arr (.line n) (maskedStep n s)
  else
    let s := usableStep n (s.setLine n ((s.line n).measured vc ic))
    if rawImpedance vc ic (s.line n).cfg.gain ≤ (s.line n).cfg.shortFloor then probeFails n s
    else probePasses arr n s

/-! ### Learn samples (R56, R57) -/

/-- A new reference taken by learning (R57): debounce dropped, deviation recomputed, UNCALIBRATED cleared. -/
def setLearned (n : LineNo) (z : Nat) (s : State) : State :=
  let l := s.line n
  let l := { l with cfg.zref := some z, deviation := deviationOf (some z) l.zf }
  clear (.uncalibrated n) none (withdrawConfirm (.line n) (dropDebounce n (s.setLine n l)))

/-- A learn sample delivered for the job's line (R56, R57). -/
def learnSample (n : LineNo) (vc ic : Code) (overrange : Bool) (s : State) : State :=
  let l := s.line n
  let acc := l.learn.getD ⟨0, 0⟩
  let z := rawImpedance vc ic l.cfg.gain
  if overrange then endLearn .learnDisturbed s
  else if z = openZ then endLearn .learnOpen s
  else
    let s := s.setLine n { l with learn := some ⟨acc.count + 1, acc.sum + z⟩ }
    if acc.count + 1 < learnSamples then s
    else
      let ref := learnedReference (acc.sum + z)
      if ref ≤ l.cfg.shortFloor then endLearn .learnShort s
      else endLearn .learnDone (setLearned n ref s)

/-! ### Earth readings (R64 to R67) -/

/-- The raise or clear of a confirmed earth state (R66), the raise held in SETTLING (R67). -/
def sendEarth (n : LineNo) (s : State) : State :=
  match (s.line n).earth with
  | .leak => if s.mc.mode = .settling then s else raise (.earthLeak n) (s.line n).earthSnapshot s
  | .normal => clear (.earthLeak n) (s.line n).earthSnapshot s

/-- An EARTH result delivered to the earth monitor (R64). The line and its earth check are judged at delivery, as R64 says: where
the earth check was turned off and on again, or a line with its selector at OPEN disabled and enabled again, while the
measurement was in flight, the result is taken, although R68 calls a result in flight at the turning off dropped. DEDUCED, log
entry 36; unsafe. -/
def earthReading (n : LineNo) (lc : Code) (trip : Bool) (s : State) : State :=
  let l := s.line n
  if l.state = .disabled ∨ !l.cfg.earthCheck then s
  else
    let code := effectiveLc lc trip
    let inst : EarthState := if isTrip l.cfg.threshold code trip then .leak else .normal
    let d := debounce l.earth l.earthCandidate l.earthCount (requiredEarth l.cfg) inst
    let s :=
      s.setLine n
        { l with lastLc := some code, earth := d.confirmed, earthCandidate := d.candidate, earthCount := d.count }
    if d.changed then sendEarth n s else s

/-! ### The raises held in SETTLING (R51, R67) -/

/-- The held raises of one line at the move to ACTIVE (R51). BLIND is raised by the masked count and the blind limit as they
stand then, as R51 says, also where the limit was lowered, in whatever mode, to or below the count and the line (an ISOLATED
one, say) has not been masked since, which R180 would leave to the next masked reading. DEDUCED, log entry 35; unsafe. -/
def heldRaises (s : State) (n : LineNo) : State :=
  let l := s.line n
  if l.state = .disabled then s
  else
    let s := if l.confirmed = .opened ∨ l.confirmed = .low ∨ l.confirmed = .high then raiseClass n l.confirmed s else s
    raiseBlind n s

/-- The held EARTH_LEAK raise of one line at the move to ACTIVE (R67). -/
def heldEarth (s : State) (n : LineNo) : State :=
  let l := s.line n
  if l.state ≠ .disabled ∧ l.earth = .leak then raise (.earthLeak n) l.earthSnapshot s else s

end Sys2Proof.Machine
end

