-- ==== Sys2Proof/Machine/Channel.lean ====
section
/-! DEFINITION. The measurement channel: rounds, the arbiter, the end of a round with what it tells mode control and the
notification unit, and the delivery of results (R21 to R38, R151). -/

namespace Sys2Proof.Machine

/-! ### Rounds (R28, R30, R151) -/

/-- The round number is a multiple of the earth divider (R28). -/
def State.earthRound (s : State) : Bool := s.chan.roundNumber.toNat % s.mc.sys.earthDivider = 0

/-- The slots of one amplifier in a round's list (R28). -/
def ampSlots (s : State) (k : AmpNo) : List Target := if (s.amp k).state = .disabled then [] else [.amp k]

/-- The slots of one line in a round's list (R28). -/
def lineSlots (s : State) (n : LineNo) : List Target :=
  let l := s.line n
  (if l.state = .connected then [.line n] else [])
    ++ (if l.state ≠ .disabled ∧ l.cfg.earthCheck ∧ s.earthRound then [.earth n] else [])

/-- The slot list a round that starts now is given (R28). -/
def slotList (s : State) : List Target := allAmps.flatMap (ampSlots s) ++ allLines.flatMap (lineSlots s)

/-- A round starts (R28). -/
def startRound (s : State) : State := { s with chan.round := some ⟨slotList s, 0, emptyRoundMs⟩ }

/-- Mode control moves from SETTLING to ACTIVE (R151): the held raises, then a grant attempt. -/
def enterActive (s : State) : State :=
  let s := { s with mc.mode := .active }
  let s := allLines.foldl heldRaises s
  let s := allLines.foldl heldEarth s
  grantAttempt id s

/-- Mode control is told of the end of a complete round (R151). -/
def countRound (s : State) : State :=
  if s.mc.mode = .settling then
    let c := min 15 (s.mc.settleCount + 1)
    let s := { s with mc.settleCount := c }
    if s.mc.sys.settleRounds ≤ c then enterActive s else s
  else s

/-- A round ends (R30). -/
def endRound (s : State) : State :=
  let s := { s with chan.round := none, chan.roundNumber := s.chan.roundNumber + 1 }
  let s := signalAll (countRound s)
  if s.runs then startRound s else s

/-! ### The arbiter (R32 to R35) -/

/-- What the arbiter does with an entry of a queue (R34). -/
inductive Judgement
  | grantable | passedOver | removed
deriving DecidableEq, Repr

/-- The judgement of a verify entry (R34). -/
def judgeVerify (s : State) : Subject → Judgement
  | .line n =>
    if (s.line n).state ≠ .probing then .removed else if (s.line n).moving then .passedOver else .grantable
  | .amp _ => .grantable

/-- The judgement of a confirm entry (R34). -/
def judgeConfirm (s : State) : Subject → Judgement
  | .line n =>
    if (s.line n).state ≠ .connected then .removed else if (s.line n).moving then .passedOver else .grantable
  | .amp k => if (s.amp k).state = .disabled then .removed else .grantable

/-- The search of a queue in list order (R34): the first grantable entry, which leaves the queue, and the queue that is
left. -/
def searchQueue (judge : Subject → Judgement) : List Subject → Option Subject × List Subject
  | [] => (none, [])
  | x :: xs =>
    match judge x with
    | .grantable => (some x, xs)
    | .passedOver => let r := searchQueue judge xs; (r.1, x :: r.2)
    | .removed => searchQueue judge xs

/-- The measurement of a subject of a queue (R25, R26). -/
def Subject.target : Subject → Target
  | .line n => .line n
  | .amp k => .amp k

/-- The duration of a measurement in ms (R21). -/
def Target.ms : Target → Nat
  | .line _ => 40
  | .earth _ => 60
  | .amp _ => 20

/-- The record of a measurement granted now (R21): the epoch or the stamp is copied. -/
def newMeasurement (t : Target) (c : GrantClass) (slot : Option Nat) (s : State) : Measurement where
  target := t
  cls := c
  epochCopy := match t with | .line n | .earth n => some (s.line n).epoch | .amp _ => none
  stampCopy := match t with | .amp k => some (s.amp k).stamp | _ => none
  slot := slot
  orphan := false
  left := t.ms

/-- A grant: the measurement is in flight (R21). -/
def grant (t : Target) (c : GrantClass) (slot : Option Nat) (s : State) : State :=
  { s with chan.inFlight := some (newMeasurement t c slot s) }

/-- The VERIFY class (R33.1). -/
def tryVerify (s : State) : State :=
  let r := searchQueue (judgeVerify s) s.chan.verify
  let s := { s with chan.verify := r.2 }
  match r.1 with
  | some x => grant x.target .verify none s
  | none => s

/-- The CONFIRM class (R33.2). -/
def tryConfirm (s : State) : State :=
  let r := searchQueue (judgeConfirm s) s.chan.confirm
  let s := { s with chan.confirm := r.2 }
  match r.1 with
  | some x => grant x.target .confirm none { s with chan.rotation := .confirm }
  | none => s

/-- The LEARN class (R27, R33.2). -/
def tryLearn (s : State) : State :=
  match s.chan.job with
  | none => s
  | some j =>
    if j.granted < learnSamples ∧ !(s.line j.line).moving then
      grant (.line j.line) .learn none
        { s with chan.job := some { j with granted := j.granted + 1 }, chan.rotation := .learn }
    else s

/-- A slot is eligible when reached (R29): by the subject as it is then. An EARTH slot of the list whose line has been disabled
and enabled, or its earth check turned off and on, since the round began is served, although R18, R60 and R68 give such a line
its first slot in the next earth round. In the same way an AMP slot of the list is served whose amplifier has been disabled
and enabled since the round began, although R83 (and R28) give such an amplifier its first slot in the next round. DEDUCED,
log entry 34; unsafe. -/
def slotEligible (s : State) : Target → Bool
  | .amp k => (s.amp k).state ≠ .disabled
  | .line n => (s.line n).state = .connected
  | .earth n => (s.line n).state ≠ .disabled && (s.line n).cfg.earthCheck

/-- A slot waits while its line is moving (R29). -/
def slotWaits (s : State) : Target → Bool
  | .amp _ => false
  | .line n | .earth n => (s.line n).moving

/-- The position of the first eligible slot at or after `pos`, with the slot; absent past the last (R29). -/
def nextSlot (s : State) : List Target → Nat → Option (Nat × Target)
  | [], _ => none
  | t :: ts, pos => if slotEligible s t then some (pos, t) else nextSlot s ts (pos + 1)

/-- A slot that is reached and eligible: granted at rest, waited for while moving (R29). -/
def takeSlot (r : Round) (pos : Nat) (t : Target) (s : State) : State :=
  if slotWaits s t then { s with chan.round := some { r with pos := pos } }
  else grant t .scan (some pos) { s with chan.round := some { r with pos := pos + 1 }, chan.rotation := .scan }

/-- The first slot of the round that has just started within the search (R29). -/
def tryFirstSlot (s : State) : State :=
  match s.chan.round with
  | none => s
  | some r =>
    match nextSlot s r.slots 0 with
    | some (pos, t) => takeSlot r pos t s
    | none => s

/-- The SCAN class (R29): the slots from the current position; skipping past the last ends the round within the search. A
round with an empty list has no work (R31). -/
def tryScan (s : State) : State :=
  match s.chan.round with
  | none => s
  | some r =>
    if r.slots = [] then s
    else
      match nextSlot s (r.slots.drop r.pos) r.pos with
      | some (pos, t) => takeSlot r pos t s
      | none => tryFirstSlot (endRound s)

/-- One class of the rotation considered. -/
def tryClass : RotClass → State → State
  | .confirm => tryConfirm
  | .learn => tryLearn
  | .scan => tryScan

/-- The cyclic order of the search, from the class after the one the pointer names (R33.2). -/
def RotClass.order : RotClass → List RotClass
  | .confirm => [.learn, .scan, .confirm]
  | .learn => [.scan, .confirm, .learn]
  | .scan => [.confirm, .learn, .scan]

/-- The first action of a list that makes a grant; none after it is tried. -/
def firstGrant : List (State → State) → State → State
  | [], s => s
  | f :: fs, s =>
    let t := f s
    if t.chan.inFlight.isSome then t else firstGrant fs t

/-- One search in SETTLING or ACTIVE (R33). -/
def searchOnce (s : State) : State := firstGrant (tryVerify :: s.chan.rotation.order.map tryClass) s

/-- A channel-free event in SETTLING or ACTIVE: a search, and, where the search ended a round and granted nothing, a
second one for the arrivals which that round end made (R32, log entry 16). -/
def searchRunning (s : State) : State :=
  let t := searchOnce s
  if t.chan.inFlight.isNone ∧ t.chan.roundNumber ≠ s.chan.roundNumber then searchOnce t else t

/-- A channel-free event (R32, R35): the record of the last measurement is let go, the mode gates the search, and in
STOPPING mode control is told when no grant was made. -/
def channelFree (s : State) : State :=
  let s := { s with chan.inFlight := none }
  match s.mc.mode with
  | .settling | .active => searchRunning s
  | .stopping =>
    let t := tryVerify s
    if t.chan.inFlight.isNone then checkStopped t else t
  | .loading | .standby => s

/-- An arrival (R32): a channel-free event if no measurement is in flight, and nothing otherwise. -/
def arrival : Arrive := fun s => if s.chan.inFlight.isSome then s else channelFree s

/-! ### Completion and delivery (R36 to R38) -/

end Sys2Proof.Machine

namespace Sys2Proof

open Machine in
/-- The result is of the kind that is in flight. -/
def Reading.fits : Reading → Target → Bool
  | .line .., .line _ => true
  | .earth .., .earth _ => true
  | .amp .., .amp _ => true
  | _, _ => false

end Sys2Proof

namespace Sys2Proof.Machine

/-- The subject changed under the measurement (R37). -/
def State.isStale (s : State) (m : Measurement) : Bool :=
  match m.target with
  | .line n | .earth n => m.epochCopy != some (s.line n).epoch
  | .amp k => m.stampCopy != some (s.amp k).stamp

/-- Where the subject of a stale result is placed (R37). -/
def placeStale (m : Measurement) (s : State) : State :=
  match m.cls, m.target with
  | .scan, .line n | .confirm, .line n =>
    if 0 < (s.line n).count then placeConfirm (.line n) s else s
  | .scan, .amp k | .confirm, .amp k => placeAmpIfCounting k s
  | .verify, .line n => if (s.line n).state = .probing then placeVerify id (.line n) s else s
  | .verify, .amp k => if s.awaitsVerify k then placeVerify id (.amp k) s else s
  | _, _ => s

/-- The delivery of a LINE result by its class (R36). -/
def deliverLine (m : Measurement) (n : LineNo) (vc ic : Code) (overrange : Bool) (s : State) : State :=
  match m.cls with
  | .verify => probeReading id n vc ic overrange s
  | .learn => if m.orphan ∨ !s.chan.job.any (·.line = n) then s else learnSample n vc ic overrange s
  | .scan | .confirm => classificationReading n vc ic overrange s

/-- The delivery of a result that is not stale to the block that owns its subject (R36). -/
def deliver (m : Measurement) (r : Reading) (s : State) : State :=
  match m.target, r with
  | .line n, .line vc ic ov => deliverLine m n vc ic ov s
  | .earth n, .earth lc trip => earthReading n lc trip s
  | .amp k, .amp ac ov prot =>
    if m.cls = .verify then takeVerify id k ac ov prot s else ampReading id k ac ov prot s
  | _, _ => s

/-- The completed measurement was of the last slot of the round in progress (R30). -/
def State.completesRound (s : State) (m : Measurement) : Bool :=
  m.cls = .scan && s.chan.round.any fun r => m.slot = some (r.slots.length - 1) && !r.slots.isEmpty

/-- The completion of the measurement in flight (R21, R36): delivery or stale discard, then the round end, then the
channel-free event. -/
def completeMeasurement (m : Measurement) (r : Reading) (s : State) : State :=
  let s := if s.isStale m then placeStale m s else deliver m r s
  let s := reportMove id s
  channelFree (if s.completesRound m then endRound s else s)

end Sys2Proof.Machine
end

