-- ==== Sys2Proof/Machine/ModeOps.lean ====
section
/-! DEFINITION. Mode control's transitions: the entry to SETTLING, the entry to STOPPING, the end of emergency
(R150, R154, R158). -/

namespace Sys2Proof.Machine

/-- Zf, and with it the deviation, made absent on a CONNECTED line (R44). -/
def Line.forget (l : Line) : Line := if l.state = .connected then { l with zf := none, deviation := none } else l

/-- Mode control enters SETTLING (R150), on a START or from LOADING. The probes and the grant come before the channel is
told, so what they place is served by the first grant. -/
def enterSettling (onStart : Bool) (s : State) : State :=
  let s := { s with mc.mode := .settling, mc.settleCount := 0 }
  let s := if onStart then s.mapLines Line.forget else s
  let s := s.mapLines fun l => { l with timer := l.timer.resume }
  let s := if s.emergency then s else startDueProbes id s
  let s := grantAttempt id s
  arrival (startRound s)

/-- The channel at the entry to STOPPING (R35): the round abandoned, the confirm queue emptied. -/
def abandonRound (s : State) : State := { s with chan.round := none, chan.confirm := [] }

/-- A PROBING line ends its probe at the entry to STOPPING (R20). -/
def stopProbe (s : State) (n : LineNo) : State :=
  if (s.line n).state = .probing then
    let s := withdrawVerify (.line n) (endProbe n .protective s)
    startRetry n (endWaiting n .restoreAborted s)
  else s

/-- The line supervisor at the entry to STOPPING (R20, R58). No rule gives an order among the PROBING lines, nor between the
learn job and them: the job ends first, then the probes end in line number order, and so do their RESTORE_ABORTED completions
stand in a port's list. DEDUCED, log entry 28; unsafe. -/
def stopLines (s : State) : State :=
  let s := endLearn .learnAborted s
  let s := s.mapLines fun l => { l with timer := l.timer.freeze }
  allLines.foldl stopProbe s

/-- Mode control enters STOPPING (R154). -/
def enterStopping (s : State) : State :=
  let s := abandonRound { s with mc.mode := .stopping }
  let s := reportMove arrival (stopLines s)
  checkStopped (signalAll s)

/-- Emergency has ended (R158). -/
def endEmergency (s : State) : State :=
  let s := if s.runs then startDueProbes arrival s else s
  grantAttempt arrival s

/-- Emergency ends if it was in force before the event and is not after it (R156). -/
def endEmergencyIfOver (before after : State) : State :=
  if before.emergency ∧ !after.emergency then endEmergency after else after

end Sys2Proof.Machine
end

