-- ==== Sys2Proof/Machine/StoreOps.lean ====
section
/-! DEFINITION. The baseline store: records as bytes, their judgement, the load and its end, and the building of a
record for a write (R162 to R168, R3, R72). -/

namespace Sys2Proof.Machine

/-! ### Records (R162, 10.2) -/

/-- What a record number stands for (R162). -/
def subjectOf (k : RecordNo) : StoreSubject :=
  if h : k.val < 16 then .line ⟨k.val, h⟩
  else if h2 : k.val < 22 then .amp ⟨k.val - 16, by omega⟩
  else .system

/-- The length of a record in bytes (10.2). -/
def StoreSubject.recordLen : StoreSubject → Nat
  | .line _ => 24
  | .amp _ => 9
  | .system => 7

/-- A record's bytes closed by its CRC-16, high byte first (R163, R164). -/
def closeRecord (body : List Byte) : List Byte := body ++ enc16 (crc16 body).toNat

/-- The bytes of a record built from the working configuration (R163). -/
def buildRecord (k : RecordNo) (s : State) : List Byte :=
  closeRecord
    (enc8 k.val ++
      match subjectOf k with
      | .line n => encBool ((s.line n).state ≠ .disabled) ++ encLineFields (s.line n).cfg
      | .amp j => encAmpFields (s.amp j).cfg ++ encBool ((s.amp j).state ≠ .disabled)
      | .system => encSystemFields s.mc.sys)

/-- A yes/no byte of a record lies in its stored range (R165). -/
def boolByteOk (b : List Byte) (i : Nat) : Bool := decide (byteAt b i ≤ 1)

/-- The content check of a line record (R165): the number byte and every field within its stored range. -/
def lineContentOk (k : RecordNo) (b : List Byte) (c : LineConfig) : Bool :=
  byteAt b 0 = k.val && boolByteOk b 1 && decide (byteAt b 2 ≤ 5) && boolByteOk b 17 && boolByteOk b 19
    && c.clamp = c

/-- The content check of an amplifier record (R165). -/
def ampContentOk (k : RecordNo) (b : List Byte) (c : AmpConfig) : Bool :=
  byteAt b 0 = k.val && boolByteOk b 1 && boolByteOk b 6 && c.clamp = c

/-- The content check of the system record (R165). -/
def systemContentOk (k : RecordNo) (b : List Byte) (c : SystemConfig) : Bool :=
  byteAt b 0 = k.val && boolByteOk b 4 && c.clamp = c

/-- The line configuration a record's bytes spell; the home byte is judged by the content check. -/
def lineOfRecord (b : List Byte) : LineConfig := lineFieldsAt b 2 ((ampNo? (byteAt b 2)).getD 0) (boolAt b 1)

/-- The amplifier configuration a record's bytes spell. -/
def ampOfRecord (b : List Byte) : AmpConfig := ampFieldsAt b 1 (boolAt b 6)

/-- The system settings a record's bytes spell. -/
def systemOfRecord (b : List Byte) : SystemConfig := systemFieldsAt b 1

/-- The content check of a record (R165). -/
def contentOk (k : RecordNo) (b : List Byte) : Bool :=
  match subjectOf k with
  | .line _ => lineContentOk k b (lineOfRecord b)
  | .amp _ => ampContentOk k b (ampOfRecord b)
  | .system => systemContentOk k b (systemOfRecord b)

/-- The judgement of a record that was answered (R165): the first check that applies. -/
def judgeRecord (k : RecordNo) (b : List Byte) : LoadCause :=
  if b.all (· = 0xFF#8) then .blank
  else if (crc16 (b.take (b.length - 2))).toNat ≠ wordAt b (b.length - 2) then .badCrc
  else if contentOk k b then .noCause
  else .badContent

/-! ### The load (R165, R166) -/

/-- An accepted record's fields become its subject's working configuration (R165). -/
def loadFields (k : RecordNo) (b : List Byte) (s : State) : State :=
  match subjectOf k with
  | .line n => s.setLine n { s.line n with cfg := lineOfRecord b }
  | .amp j => s.setAmp j { s.amp j with cfg := ampOfRecord b }
  | .system => { s with mc.sys := systemOfRecord b }

/-- A rejected record's subject takes the factory defaults (R165). -/
def loadDefaults (k : RecordNo) (s : State) : State :=
  match subjectOf k with
  | .line n => s.setLine n { s.line n with cfg := factoryLine n }
  | .amp j => s.setAmp j { s.amp j with cfg := factoryAmp j }
  | .system => { s with mc.sys := rejectedSystem }

/-- The condition and load cause of a record set. -/
def setStatus (k : RecordNo) (x : RecordStatus) (s : State) : State :=
  { s with store.status := s.store.status.set k.val x k.isLt }

/-- The condition and load cause of a record. -/
def State.recordStatus (s : State) (k : RecordNo) : RecordStatus := s.store.status.get k

/-- The nonvolatile area of a record set. -/
def setArea (k : RecordNo) (a : Area) (s : State) : State :=
  { s with store.areas := s.store.areas.set k.val a k.isLt }

/-- The line of a working configuration will end LOADING enabled (R166). -/
def State.endsEnabled (s : State) (n : LineNo) : Bool :=
  (s.line n).cfg.enabled && allAmps.any fun k => (s.amp k).cfg.role = .duty

/-- The STORE_FAULT raise of one record, if the load rejected it (R166). -/
def raiseRejected (s : State) (k : RecordNo) : State :=
  let due := (s.recordStatus k).condition = .defaulted
  match subjectOf k with
  | .line n => if due ∧ s.endsEnabled n then raise (.storeFault (.line n)) none s else s
  | x => if due then raise (.storeFault x) none s else s

/-- The UNCALIBRATED raise of one line, if its working reference is absent (R166). -/
def raiseUncalibrated (s : State) (n : LineNo) : State :=
  if (s.line n).cfg.zref.isNone ∧ s.endsEnabled n then raise (.uncalibrated n) none s else s

/-- The raises of the load, after the system record has been judged (R166). -/
def loadRaises (s : State) : State := allLines.foldl raiseUncalibrated (allRecords.foldl raiseRejected s)

/-- The lowest-numbered DUTY amplifier. -/
def State.firstDuty (s : State) : Option AmpNo := allAmps.find? fun k => (s.amp k).cfg.role = .duty

/-- One amplifier established at the end of LOADING (R72, R73). -/
def establishAmp (s : State) (k : AmpNo) : State :=
  let x := s.amp k
  if !x.cfg.enabled then s
  else
    match x.cfg.role with
    | .duty => setAmpState k .healthy s
    | .standby => setAmpState k .free s

/-- The home amplifier and enabled field a line leaves LOADING with (R3.1). -/
def State.settledConfig (s : State) (n : LineNo) : LineConfig :=
  let c := (s.line n).cfg
  if (s.amp c.home).cfg.role = .duty then c
  else
    match s.firstDuty with
    | some d => { c with home := d }
    | none => { c with enabled := false }

/-- One line established at the end of LOADING (R3). -/
def establishLine (s : State) (n : LineNo) : State :=
  let c := s.settledConfig n
  let s := s.setLine n { s.line n with cfg := c, current := c.home }
  if c.enabled then orderSelector n (.bus c.home) (s.setLine n { s.line n with state := .connected })
  else orderSelector n .off s

/-- Mode control ends LOADING (R149). -/
def endLoading (s : State) : State :=
  let s := allAmps.foldl establishAmp s
  let s := allLines.foldl establishLine s
  if s.mc.sys.autostart then enterSettling false s else enterStandby s

/-- A record has been judged (R166): the next read begins, or the load is done. -/
def nextRead (s : State) : State :=
  let j := s.store.judged + 1
  let s := { s with store.judged := j, store.readLeft := readMs }
  if j = 23 then endLoading (loadRaises s) else s

/-- A record judged with a cause: accepted for no cause, rejected for any other (R165). -/
def settleRecord (k : RecordNo) (b : List Byte) (cause : LoadCause) (s : State) : State :=
  nextRead
    (if cause = .noCause then setStatus k ⟨.valid, .noCause⟩ (loadFields k b s)
      else setStatus k ⟨.defaulted, cause⟩ (loadDefaults k s))

/-- The record whose read is in progress: the load runs in LOADING until all are judged (R166). -/
def State.reading (s : State) : Option RecordNo := if s.mc.mode = .loading then recordNo? s.store.judged else none

/-- The store can answer the read of record `k` with `b`: the area's bytes where they are known (R162), otherwise bytes of
the record's length (log entry 5), and of an area whose write was cut off only such as the load rejects (R170). -/
def State.canAnswer (s : State) (k : RecordNo) (b : List Byte) : Bool :=
  match s.store.areas.get k with
  | .known x => b = x
  | .unknown => b.length = (subjectOf k).recordLen
  | .cutOff => decide (b.length = (subjectOf k).recordLen ∧ judgeRecord k b ≠ .noCause)

end Sys2Proof.Machine
end

