-- ==== Sys2Proof/Machine/ReadingRequests.lean ====
section
/-! DEFINITION. The requests that read the part: STATUS, IDENTIFY, READ_LINE, READ_AMP, READ_RECORD, LIST_RECORDS and
READ_QUEUE (R126, R127, R176 to R179), with the coding of their replies (R171; log entries 12 to 14). -/

namespace Sys2Proof.Machine

/-! ### STATUS (R176) -/

/-- Condition and load cause of one record, sent as 0 until the load has judged it (R176). -/
def encStatus (s : State) (k : RecordNo) : List Byte :=
  if k.val < s.store.judged then
    enc8 (s.recordStatus k).condition.pos ++ enc8 (s.recordStatus k).cause.pos
  else [0, 0]

/-- Mode control's part of STATUS (R148, R176.1). -/
def statusMode (s : State) : List Byte :=
  enc8 s.mc.mode.pos ++ enc8 s.mc.settleCount ++ enc8 s.mc.sys.settleRounds ++ enc8 (emergPos s.mc.emergInput)
    ++ enc8 (flagPos s.mc.flagA) ++ enc8 (flagPos s.mc.flagB) ++ encBool s.emergency ++ enc8 s.mc.supply.pos
    ++ enc8 s.mc.cause.pos

/-- The baseline store's part of STATUS (R176.2). -/
def statusStore (s : State) : List Byte :=
  enc8 s.store.judged ++ allRecords.flatMap (encStatus s)
    ++ encOpt 2 (fun w => enc8 w.record.val ++ encPort w.requester.port) s.store.write

/-- The fault table's part of STATUS (R176.3). TABLE_FULL is a flag that is set or clear (R124), with no list of values and no
yes/no: it is sent as 1 when set and 0 when clear. DEDUCED, log entry 12; unsafe. -/
def statusTable (s : State) : List Byte :=
  enc8 s.faults.records.length ++ enc16 s.faults.counter.toNat ++ encBool s.faults.full ++ enc8 s.faults.deferred.length

/-- The STATUS reply: the fields of R176 in its order, and then the earth divider, which R69 says is reported with the system
settings and for which R176 has no field (its place and width: DEDUCED, log entry 29; unsafe). -/
def statusReply (p : Port) (s : State) : Reply :=
  ⟨.ok, statusMode s ++ statusStore s ++ statusTable s ++ enc16 s.chan.roundNumber.toNat
    ++ enc8 (s.port p).outstanding ++ enc16 (s.port p).session.toNat ++ enc8 s.mc.sys.earthDivider⟩

/-- STATUS (R176). -/
def execStatus (p : Port) (payload : List Byte) (s : State) : Host.Outcome State Fault Refusal :=
  takeRequest .status p payload (fun s => (s, statusReply p s)) s

/-! ### IDENTIFY (R177) -/

/-- The IDENTIFY reply (R177): part identifier, revision (a free value, log entry 11), lines, amplifiers, port. -/
def identifyReply (p : Port) : Reply := ⟨.ok, enc16 0x1606 ++ Config.revision ++ enc8 16 ++ enc8 6 ++ encPort p⟩

/-- IDENTIFY (R177). -/
def execIdentify (p : Port) (payload : List Byte) (s : State) : Host.Outcome State Fault Refusal :=
  takeRequest .identify p payload (fun s => (s, identifyReply p)) s

/-! ### READ_LINE and READ_AMP (R178) -/

/-- A waiting RESTORE as port and tag. -/
def encPortTag (r : Requester) : List Byte := encPort r.port ++ [r.tag]

/-- The runtime fields of a line (R178). -/
def encLineRuntime (l : Line) : List Byte :=
  enc8 l.state.pos ++ enc8 l.selector.pos ++ encBool l.moving ++ enc8 l.current.val ++ [l.epoch] ++ enc8 l.cause.pos
    ++ encOpt 2 enc16 l.rawZ ++ encOpt 2 enc16 l.zf ++ encOpt 2 encDev l.deviation ++ enc8 l.confirmed.pos
    ++ encOpt 1 (fun c => enc8 c.pos) l.candidate ++ enc8 l.count ++ enc8 l.masked ++ enc8 l.retryCount
    ++ enc8 l.timer.pos ++ enc24 l.timer.ms ++ encBool l.probeDue ++ enc8 l.passCount ++ encOpt 2 encPortTag l.waiting

/-- The earth fields of a line (R69, R178). -/
def encLineEarth (l : Line) : List Byte :=
  encOpt 2 (fun c => enc16 c.val) l.lastLc ++ encOpt 2 (fun c => enc16 (earthEstimate c)) l.lastLc
    ++ enc8 l.earth.pos ++ encOpt 1 (fun c => enc8 c.candPos) l.earthCandidate ++ enc8 l.earthCount

/-- The READ_LINE reply of a line (R178). -/
def lineReply (l : Line) : Reply :=
  ⟨.ok, encBool l.cfg.enabled ++ encLineReport l.cfg ++ encLineRuntime l ++ encLineEarth l⟩

/-- READ_LINE (R54, R69, R178). -/
def execReadLine (p : Port) (payload : List Byte) (s : State) : Host.Outcome State Fault Refusal :=
  takeRequest .readLine p payload
    (fun s =>
      match lineNo? (byteAt payload 0) with
      | none => (s, bare .badSubject)
      | some n => (s, lineReply (s.line n))) s

/-- The amplifier a READ_AMP reply names as covered (standby) or covering (duty) (R85). -/
def Amp.partner (x : Amp) : Option AmpNo :=
  match x.cfg.role with
  | .duty => x.coveringStandby
  | .standby => x.coveredAmp

/-- The READ_AMP reply of an amplifier (R85, R178). -/
def ampReply (x : Amp) : Reply :=
  ⟨.ok, encAmpFields x.cfg ++ encBool x.cfg.enabled ++ enc8 (x.state.pos x.cfg.role) ++ enc8 x.condition.pos
    ++ encOpt 1 (fun c => enc8 c.candPos) x.candidate ++ enc8 x.count ++ encOpt 2 (fun c => enc16 c.val) x.lastAc
    ++ encOpt 1 (fun b => enc8 (protPos b)) x.lastProt ++ encOpt 1 (fun k => enc8 k.val) x.partner
    ++ encOpt 2 (fun q => enc16 q.toNat) x.coverSeq ++ enc8 x.carrying.val ++ [x.stamp]⟩

/-- READ_AMP (R85, R178). -/
def execReadAmp (p : Port) (payload : List Byte) (s : State) : Host.Outcome State Fault Refusal :=
  takeRequest .readAmp p payload
    (fun s =>
      match ampNo? (byteAt payload 0) with
      | none => (s, bare .badSubject)
      | some k => (s, ampReply (s.amp k))) s

/-! ### READ_RECORD and LIST_RECORDS (R126, R127) -/

/-- The detail snapshot of a record of a class (R110). -/
def encSnapshotValue : Snapshot → List Byte
  | .impedance zf dev => encOpt 2 enc16 zf ++ encOpt 2 encDev dev
  | .earth lc r => enc16 lc.val ++ enc16 r
  | .amp ac prot => enc16 ac.val ++ enc8 (protPos prot)

/-- The width in bytes of the snapshot of a key's class (R110). -/
def FaultKey.snapshotWidth : FaultKey → Nat
  | .lineShort _ | .lineOpen _ | .lineLow _ | .lineHigh _ => 6
  | .earthLeak _ => 4
  | .ampFail _ => 3
  | _ => 0

/-- The fields of a record that FETCH and READ_RECORD send: key to snapshot (R126, R134). -/
def encRecord (r : FaultRecord) : List Byte :=
  encKey r.key ++ enc8 r.lifecycle.pos ++ enc8 r.occurrences ++ enc16 r.firstRound.toNat ++ enc16 r.stamp.toNat
    ++ encOpt 1 encPort r.ackPort ++ encOpt r.key.snapshotWidth encSnapshotValue r.snapshot

/-- The READ_RECORD reply of a well-formed key (R126). -/
def recordReply (k : FaultKey) (s : State) : Reply :=
  match s.faults.find k with
  | some r => ⟨.ok, encRecord r ++ encBool r.marks.a ++ encBool r.marks.b ++ encBool r.marks.m⟩
  | none =>
    if s.faults.defers k then
      ⟨.nothing, enc8 (s.faults.deferred.findIdx (·.key = k)) ++ enc8 s.faults.deferred.length⟩
    else bare .badSubject

/-- READ_RECORD (R126). -/
def execReadRecord (p : Port) (payload : List Byte) (s : State) : Host.Outcome State Fault Refusal :=
  takeRequest .readRecord p payload
    (fun s =>
      match keyAt payload with
      | none => (s, bare .badSubject)
      | some k => (s, recordReply k s)) s

/-- One summary of LIST_RECORDS for a port (R127). -/
def encSummary (p : Port) (r : FaultRecord) : List Byte :=
  encKey r.key ++ enc8 r.lifecycle.pos ++ enc8 r.occurrences ++ enc16 r.stamp.toNat ++ encBool (r.newFor p)

/-- The LIST_RECORDS reply from a start index (R127), TABLE_FULL in it as 1 when set (DEDUCED, log entry 12; unsafe). -/
def listReply (p : Port) (i : Nat) (s : State) : Reply :=
  let header :=
    enc8 s.faults.records.length ++ enc16 s.faults.counter.toNat ++ encBool s.faults.full
      ++ enc8 s.faults.deferred.length
  if 47 < i then bare .badSubject
  else if s.faults.records.length ≤ i then ⟨.nothing, header⟩
  else ⟨.ok, header ++ encList (encSummary p) ((s.faults.records.drop i).take 6)⟩

/-- LIST_RECORDS (R127). -/
def execListRecords (p : Port) (payload : List Byte) (s : State) : Host.Outcome State Fault Refusal :=
  takeRequest .listRecords p payload (fun s => (s, listReply p (byteAt payload 0) s)) s

/-! ### READ_QUEUE (R40, R107, R179) -/

/-- The round in progress: yes with the number of slots and the position, or no (R40). -/
def encRound (r : Option Round) : List Byte := encOpt 2 (fun r => enc8 r.slots.length ++ enc8 r.pos) r

/-- The measurement channel's report (R40). The subject of the measurement in flight is sent in the subject coding of a
fault key, which R179 gives for the entries of the two queues alone. DEDUCED, log entry 12; unsafe. -/
def channelReport (c : Channel) : List Byte :=
  encList encSubject c.verify ++ encList encSubject c.confirm
    ++ encOpt 2 (fun j => enc8 j.line.val ++ enc8 j.granted) c.job ++ enc16 c.roundNumber.toNat ++ encRound c.round
    ++ enc8 c.rotation.pos
    ++ encOpt 3 (fun m => enc8 m.target.pos ++ enc8 m.cls.pos ++ encSubject m.target.subject) c.inFlight

/-- An entry of the changeover queue (R107). -/
def encEntry (e : CoEntry) : List Byte :=
  enc8 e.duty.val ++ enc8 e.kind.pos ++ enc8 e.origin.pos ++ encOpt 2 encPortTag e.requester ++ enc16 e.seq.toNat

/-- The operation in flight (R107). -/
def encOperation (o : Operation) : List Byte :=
  enc8 o.kind.pos ++ enc8 o.duty.val ++ enc8 o.standby.val ++ enc8 o.origin.pos ++ encOpt 2 encPortTag o.requester
    ++ enc16 o.seq.toNat ++ enc8 o.phase.pos

/-- The state and covered amplifier of a standby (R107). -/
def encStandby (x : Amp) : List Byte := enc8 (x.state.pos .standby) ++ encOpt 1 (fun k => enc8 k.val) x.coveredAmp

/-- The changeover unit's report (R107). -/
def changeoverReport (s : State) : List Byte :=
  encList encEntry s.co.queue ++ encOpt 10 encOperation s.co.op ++ enc16 s.co.seqCounter.toNat
    ++ encList (fun k => encStandby (s.amp k)) (allAmps.filter fun k => (s.amp k).cfg.role = .standby)

/-- READ_QUEUE (R179). -/
def execReadQueue (p : Port) (payload : List Byte) (s : State) : Host.Outcome State Fault Refusal :=
  takeRequest .readQueue p payload (fun s => (s, ⟨.ok, channelReport s.chan ++ changeoverReport s⟩)) s

end Sys2Proof.Machine
end

