-- ==== Sys2Proof/Machine/NotificationRequests.lean ====
section
/-! DEFINITION. The notification requests: LISTEN, LEAVE, SET_NOTIFY, FETCH, PEEK, DONE, DONE_CLASS, READ_COMPLETION and
RESET_PORT (R130 to R145, R181), and the acknowledging requests ACK and ACK_ALL (R118, R120). -/

namespace Sys2Proof.Machine

/-! ### Listening (R130, R131) -/

/-- A port's mark on a record set, outside any transition (R121). -/
def FaultRecord.mark (p : Port) (r : FaultRecord) : FaultRecord := { r with marks := r.marks.set p true }

/-- A port that is not listening starts listening (R130). -/
def startListening (p : Port) (s : State) : State :=
  let s := s.setPort p { s.port p with listening := true }
  signalIfEligible p { s with faults.records := s.faults.records.map (·.mark p) }

/-- A listening port stops listening (R131). -/
def stopListening (p : Port) (s : State) : State :=
  let s := dropAllMarks p (s.setPort p { s.port p with listening := false })
  s.setPort p { s.port p with inService := noClasses, latch := false }

/-- LISTEN (R130). -/
def execListen (p : Port) (payload : List Byte) (s : State) : Host.Outcome State Fault Refusal :=
  takeRequest .listen p payload
    (fun s =>
      if (s.port p).listening then (s, bare .noChange)
      else
        let s := startListening p s
        (s, ⟨.ok, enc8 (s.newCount p)⟩)) s

/-- LEAVE (R131). -/
def execLeave (p : Port) (payload : List Byte) (s : State) : Host.Outcome State Fault Refusal :=
  takeRequest .leave p payload
    (fun s => if (s.port p).listening then (stopListening p s, bare .ok) else (s, bare .noChange)) s

/-! ### SET_NOTIFY (R132) -/

/-- The port's latch set if a class is eligible and cleared if none is (R132). -/
def latchAsEligible (p : Port) (s : State) : State := s.setLatch p (s.anyEligible p)

/-- SET_NOTIFY (R132). -/
def execSetNotify (p : Port) (payload : List Byte) (s : State) : Host.Outcome State Fault Refusal :=
  takeRequest .setNotify p payload
    (fun s =>
      let level := byteAt payload 1
      let x := { s.port p with
        mask := classesOfByte (byteAt payload 0), urgent := min 8 level, autoDone := boolAt payload 2 }
      (latchAsEligible p (s.setPort p x), bare (if 8 < level then .clamped else .ok))) s

/-! ### FETCH and PEEK (R134 to R136) -/

/-- The record a FETCH gives: the first of class `c`, in list order, that is NEW for `p` (R134). -/
def State.fetched (s : State) (p : Port) (c : ClassNo) : Option FaultRecord :=
  s.faults.records.find? fun r => r.newFor p && r.key.cls == c

/-- What a FETCH of record `r` of class `c` does (R134.4 to R134.7). -/
def fetchRecord (p : Port) (c : ClassNo) (r : FaultRecord) (s : State) : State :=
  let s := dropMark p r.key s
  let x := s.port p
  let s := if x.autoDone then s else s.setPort p { x with inService := x.inService.put c true }
  let s := checkRemoval r.key s
  if s.anyEligible p then s else s.setLatch p false

/-- The reply of a FETCH that gave `r` (R134). -/
def fetchReply (p : Port) (c : ClassNo) (r : FaultRecord) (entered : Bool) (s : State) : Reply :=
  ⟨.ok, encRecord r ++ enc8 c.val ++ encBool entered ++ encClasses (s.port p).inService ++ enc8 (s.newCount p)⟩

/-- A FETCH that finds no eligible class (R135). -/
def fetchNothing (p : Port) (s : State) : State × Reply :=
  (s.setLatch p false, ⟨.nothing, enc8 (s.newCount p) ++ enc8 (s.blockedCount p)⟩)

/-- FETCH (R134, R135). -/
def execFetch (p : Port) (payload : List Byte) (s : State) : Host.Outcome State Fault Refusal :=
  takeRequest .fetch p payload
    (fun s =>
      match s.lowestEligible p with
      | none => fetchNothing p s
      | some c =>
        match s.fetched p c with
        | none => fetchNothing p s
        | some r =>
          let t := fetchRecord p c r s
          (t, fetchReply p c r (!(s.port p).autoDone) t)) s

/-- A port's notification state as PEEK sends it (R136). R129 gives the class mask as one flag for each class and R171 states no
coding of it in a reply: it is sent as one byte whose bit c is 1 when class c is masked, as in SET_NOTIFY's payload. DEDUCED,
log entry 12; unsafe. -/
def peekState (p : Port) (s : State) : List Byte :=
  let x := s.port p
  encBool x.listening ++ encClasses x.mask ++ enc8 x.urgent ++ encBool x.autoDone ++ encClasses x.inService
    ++ encBool x.latch ++ enc8 (s.newCount p) ++ enc8 (s.blockedCount p)
    ++ allClasses.flatMap (fun c => enc8 (s.newCountOf p c)) ++ enc8 x.completions.length ++ enc8 x.inFlight

/-- The PEEK reply (R136). -/
def peekReply (p : Port) (s : State) : Reply :=
  match s.lowestEligible p with
  | none => ⟨.nothing, peekState p s⟩
  | some c =>
    match s.fetched p c with
    | none => ⟨.nothing, peekState p s⟩
    | some r => ⟨.ok, enc8 c.val ++ encKey r.key ++ peekState p s⟩

/-- PEEK (R136). -/
def execPeek (p : Port) (payload : List Byte) (s : State) : Host.Outcome State Fault Refusal :=
  takeRequest .peek p payload (fun s => (s, peekReply p s)) s

/-! ### DONE and DONE_CLASS (R137, R138) -/

/-- A class removed from the port's in-service set, and the latch set if a class is now eligible (R137, R138). -/
def finishClass (p : Port) (c : ClassNo) (s : State) : State :=
  signalIfEligible p (s.setPort p { s.port p with inService := (s.port p).inService.put c false })

/-- DONE (R137). -/
def execDone (p : Port) (payload : List Byte) (s : State) : Host.Outcome State Fault Refusal :=
  takeRequest .done p payload
    (fun s =>
      match (s.port p).inService.lowest with
      | none => (s, bare .noChange)
      | some c =>
        let t := finishClass p c s
        (t, ⟨.ok, enc8 c.val ++ encClasses (t.port p).inService⟩)) s

/-- DONE_CLASS (R138). -/
def execDoneClass (p : Port) (payload : List Byte) (s : State) : Host.Outcome State Fault Refusal :=
  takeRequest .doneClass p payload
    (fun s =>
      match classNo? (byteAt payload 0) with
      | none => (s, bare .badSubject)
      | some c =>
        if (s.port p).inService.has c then
          let t := finishClass p c s
          (t, ⟨.ok, encClasses (t.port p).inService⟩)
        else (s, bare .noChange)) s

/-! ### READ_COMPLETION and RESET_PORT (R144, R145, R181) -/

/-- READ_COMPLETION (R144). -/
def execReadCompletion (p : Port) (payload : List Byte) (s : State) : Host.Outcome State Fault Refusal :=
  takeRequest .readCompletion p payload
    (fun s =>
      let x := s.port p
      match x.completions with
      | [] => (s, ⟨.nothing, enc8 x.inFlight⟩)
      | c :: cs =>
        (s.setPort p { x with completions := cs },
          ⟨.ok, [c.tag, c.request.code] ++ enc8 c.outcome.code ++ enc8 cs.length⟩)) s

/-- The notification and completion state of a port returned to its defaults, its session advanced (R145). -/
def resetPortSide (p : Port) (s : State) : State :=
  let s := if (s.port p).listening then stopListening p s else s
  let x := s.port p
  s.setPort p
    { x with
      mask := noClasses, urgent := 3, autoDone := false, inService := noClasses, latch := false, completions := [],
      inFlight := 0, session := x.session + 1 }

/-- A port's emergency flag set or cleared; Port M has none (R156). -/
def setFlag (p : Port) (v : Bool) (s : State) : State :=
  match p with
  | .a => { s with mc.flagA := v }
  | .b => { s with mc.flagB := v }
  | .m => s

/-- A port's emergency flag; Port M has none (R156). -/
def State.flag (s : State) : Port → Bool
  | .a => s.mc.flagA
  | .b => s.mc.flagB
  | .m => false

/-- RESET_PORT (R145, R181). -/
def execResetPort (p : Port) (payload : List Byte) (s : State) : Host.Outcome State Fault Refusal :=
  takeRequest .resetPort p payload
    (fun s =>
      let s := resetPortSide p s
      let t := endEmergencyIfOver s (setFlag p false s)
      (t, ⟨.ok, enc16 (t.port p).session.toNat ++ encBool t.emergency⟩)) s

/-! ### ACK and ACK_ALL (R118, R120) -/

/-- ACK (R118). -/
def execAck (p : Port) (payload : List Byte) (s : State) : Host.Outcome State Fault Refusal :=
  takeRequest .ack p payload
    (fun s =>
      match keyAt payload with
      | none => (s, bare .badSubject)
      | some k =>
        match s.faults.find k with
        | none => (s, bare .badSubject)
        | some r => if r.unacknowledged then (acknowledge p k s, bare .ok) else (s, bare .noChange)) s

/-- The keys of the unacknowledged records, in list order (R120). -/
def State.unackKeys (s : State) : List FaultKey := (s.faults.records.filter (·.unacknowledged)).map (·.key)

/-- ACK_ALL (R120). -/
def execAckAll (p : Port) (payload : List Byte) (s : State) : Host.Outcome State Fault Refusal :=
  takeRequest .ackAll p payload
    (fun s => (s.unackKeys.foldl (fun s k => acknowledge p k s) s, ⟨.ok, enc8 s.unackKeys.length⟩)) s

end Sys2Proof.Machine
end

