-- ==== Sys2Proof/Machine/LineRequests.lean ====
section
/-! DEFINITION. The requests on one line: ISOLATE, RESTORE, ENABLE_LINE, DISABLE_LINE, CONFIGURE_LINE and LEARN (R1, R2,
R15 to R19, R55, R68). -/

namespace Sys2Proof.Machine

/-- A request on one line: a number above 15 is refused with BAD_SUBJECT (1.6). This check comes before the request's own ones,
as R1 and R55 say of theirs; for DISABLE_LINE, which R19 and R157 refuse with EMERGENCY while emergency is in force, no rule
gives an order of the two, and the model answers BAD_SUBJECT then too. DEDUCED, log entry 37; unsafe. -/
def onLine (payload : List Byte) (act : LineNo → State → State × Reply) (s : State) : State × Reply :=
  match lineNo? (byteAt payload 0) with
  | none => (s, bare .badSubject)
  | some n => act n s

/-- After the line supervisor's own effects on a line: a move that has just become done is reported (R7, log entry
17). -/
def withReport (r : State × Reply) : State × Reply := (reportMove arrival r.1, r.2)

/-! ### ISOLATE (R15) -/

/-- ISOLATE of a CONNECTED line (R15). -/
def isolateConnected (n : LineNo) (s : State) : State :=
  let s := orderSelector n .off s
  let s := s.setLine n { s.line n with state := .isolated, cause := .command }
  dropDebounce n (withdrawConfirm (.line n) s)

/-- ISOLATE of a PROBING line (R15). -/
def isolateProbing (n : LineNo) (s : State) : State :=
  let s := withdrawVerify (.line n) (endProbe n .command s)
  endWaiting n .restoreAborted (s.setLine n { s.line n with timer := .idle })

/-- ISOLATE of a line that is already off its bus: the cause becomes COMMAND, and the timer, the mark and the waiting
RESTORE end (R15). -/
def isolateOff (n : LineNo) (s : State) : State :=
  let l := { s.line n with state := .isolated, cause := .command, timer := .idle, probeDue := false }
  endWaiting n .restoreAborted (s.setLine n l)

/-- ISOLATE by the state of the line (R15). -/
def isolateLine (n : LineNo) (s : State) : State × Reply :=
  let l := s.line n
  match l.state with
  | .connected => withReport (isolateConnected n s, bare .ok)
  | .probing => withReport (isolateProbing n s, bare .ok)
  | .isolated =>
    if l.cause = .command ∧ l.waiting.isNone then (s, bare .noChange) else (isolateOff n s, bare .ok)
  | .locked => (isolateOff n s, bare .ok)
  | .disabled => (s, bare .wrongState)

/-- ISOLATE (R15). -/
def execIsolate (p : Port) (payload : List Byte) (s : State) : Host.Outcome State Fault Refusal :=
  takeRequest .isolate p payload (onLine payload isolateLine) s

/-! ### RESTORE (R16) -/

/-- An accepted RESTORE (R16): the probe starts, or is due. -/
def acceptRestore (p : Port) (tag : Byte) (n : LineNo) (s : State) : State :=
  let w := s.requester p tag .restore
  let s := s.setLine n { s.line n with retryCount := 0, timer := .idle, waiting := some w }
  if s.runs ∧ !s.emergency then startProbe arrival n s
  else s.setLine n { s.line n with probeDue := true }

/-- RESTORE by the state of the line (R16). -/
def restoreLine (p : Port) (tag : Byte) (n : LineNo) (s : State) : State × Reply :=
  let l := s.line n
  match l.state with
  | .isolated | .locked =>
    if l.waiting.isSome then (s, bare .noChange) else withReport (accept p (acceptRestore p tag n s))
  | .connected | .probing => (s, bare .noChange)
  | .disabled => (s, bare .wrongState)

/-- RESTORE (R16). -/
def execRestore (p : Port) (tag : Byte) (payload : List Byte) (s : State) : Host.Outcome State Fault Refusal :=
  takeRequest .restore p payload (onLine payload (restoreLine p tag)) s

/-! ### ENABLE_LINE (R18) -/

/-- The record of a line brought into supervision (R18): the runtime fields at their reset values, except state, cause,
selector, current amplifier and epoch. -/
def Line.brought (l : Line) : Line :=
  { l with
    cfg.enabled := true, state := .isolated, cause := .command,
    rawZ := none, zf := none, deviation := none, confirmed := .normal, candidate := none, count := 0, masked := 0,
    retryCount := 0, timer := .idle, probeDue := false, passCount := 0, waiting := none,
    lastLc := none, earth := .normal, earthCandidate := none, earthCount := 0, learn := none }

/-- ENABLE_LINE by the state of the line (R18). -/
def enableLine (n : LineNo) (s : State) : State × Reply :=
  if (s.line n).state ≠ .disabled then (s, bare .noChange)
  else
    let s := s.setLine n (s.line n).brought
    (if (s.line n).cfg.zref.isNone then raise (.uncalibrated n) none s else s, bare .ok)

/-- ENABLE_LINE (R18). -/
def execEnableLine (p : Port) (payload : List Byte) (s : State) : Host.Outcome State Fault Refusal :=
  takeRequest .enableLine p payload (onLine payload enableLine) s

/-! ### DISABLE_LINE (R19) -/

/-- The records of a line, in the order DISABLE_LINE clears them (R19.7). -/
def lineKeys (n : LineNo) : List FaultKey :=
  [.lineShort n, .lineOpen n, .earthLeak n, .lineLow n, .lineHigh n, .uncalibrated n, .blind n, .storeFault (.line n)]

/-- The record of a line removed from supervision (R19.3, R19.5, R19.6). -/
def Line.removed (l : Line) : Line :=
  { l with
    cfg.enabled := false, state := .disabled, cause := .noCause,
    timer := .idle, probeDue := false, retryCount := 0, passCount := 0,
    rawZ := none, zf := none, deviation := none, confirmed := .normal, candidate := none, count := 0, masked := 0,
    lastLc := none, earth := .normal, earthCandidate := none, earthCount := 0 }

/-- What DISABLE_LINE does to a line that is not DISABLED (R19). -/
def removeLine (n : LineNo) (s : State) : State :=
  let s := orderSelector n .off (endWaiting n .restoreAborted s)
  let s := withdrawConfirm (.line n) (withdrawVerify (.line n) (s.setLine n (s.line n).removed))
  abortLearnOf n ((lineKeys n).foldl (fun s k => clear k none s) s)

/-- DISABLE_LINE by the state of the line (R19); a number above 15 has been refused before, in emergency too (log entry 37). -/
def disableLine (n : LineNo) (s : State) : State × Reply :=
  if s.emergency then (s, bare .emergency)
  else if (s.line n).state = .disabled then (s, bare .noChange)
  else withReport (removeLine n s, bare .ok)

/-- DISABLE_LINE (R19). -/
def execDisableLine (p : Port) (payload : List Byte) (s : State) : Host.Outcome State Fault Refusal :=
  takeRequest .disableLine p payload (onLine payload disableLine) s

/-! ### CONFIGURE_LINE (R1, R2, R68) -/

/-- The effects of a changed reference (R2.2). -/
def configureReference (n : LineNo) (old : LineConfig) (s : State) : State :=
  let l := s.line n
  if l.cfg.zref = old.zref then s
  else
    let l := { l with candidate := none, count := 0, deviation := deviationOf l.cfg.zref l.zf }
    let s := withdrawConfirm (.line n) (s.setLine n l)
    if l.state = .disabled then s
    else if l.cfg.zref.isNone then raise (.uncalibrated n) none s
    else clear (.uncalibrated n) none s

/-- The effects of changed earth settings and counts (R2.3, R68). R66 speaks of a clear of EARTH_LEAK "by the correction of
R68", and R68 states no correction that clears: the one clear here is that of the earth check turned off. DEDUCED, log
entry 30; unsafe. -/
def configureEarth (n : LineNo) (old : LineConfig) (s : State) : State :=
  let c := (s.line n).cfg
  let s :=
    if c.earthCheck ≠ old.earthCheck ∨ c.threshold ≠ old.threshold ∨ c.raiseCount ≠ old.raiseCount
        ∨ c.clearCount ≠ old.clearCount then
      s.setLine n { s.line n with earthCandidate := none, earthCount := 0 }
    else s
  if old.earthCheck ∧ !c.earthCheck then
    clear (.earthLeak n) none (s.setLine n { s.line n with earth := .normal, lastLc := none })
  else s

/-- The effects on the retry timer of a line that is ISOLATED with cause PROTECTIVE (R2.4). -/
def configureRetry (n : LineNo) (s : State) : State :=
  let l := s.line n
  if l.state ≠ .isolated ∨ l.cause ≠ .protective then s
  else if l.cfg.retryLimit ≤ l.retryCount then
    s.setLine n { l with state := .locked, cause := .lockout, timer := .idle }
  else if !l.cfg.autoRetry then s.setLine n { l with timer := .idle }
  else if l.timer = .idle then s.setLine n { l with timer := s.startedTimer l.fullDelay }
  else s

/-- What an accepted CONFIGURE_LINE does (R2): the configuration written, then its effects in order. -/
def applyLineConfig (n : LineNo) (c : LineConfig) (s : State) : State :=
  let old := (s.line n).cfg
  let s := s.setLine n { s.line n with cfg := c, current := (s.amp c.home).carrying }
  configureRetry n (configureEarth n old (configureReference n old s))

/-- CONFIGURE_LINE's checks and effects (R1). -/
def configureLine (payload : List Byte) (n : LineNo) (s : State) : State × Reply :=
  let l := s.line n
  if s.emergency then (s, bare .emergency)
  else if l.state = .connected ∨ l.state = .probing then (s, bare .wrongState)
  else
    match ampNo? (byteAt payload 1) with
    | none => (s, bare .badSubject)
    | some home =>
      if (s.amp home).cfg.role ≠ .duty then (s, bare .badSubject)
      else
        let asked := lineFieldsAt payload 1 home l.cfg.enabled
        (applyLineConfig n asked.clamp s, bare (if asked.clamp = asked then .ok else .clamped))

/-- CONFIGURE_LINE (R1, R2). -/
def execConfigureLine (p : Port) (payload : List Byte) (s : State) : Host.Outcome State Fault Refusal :=
  takeRequest .configureLine p payload (onLine payload (configureLine payload)) s

/-! ### LEARN (R55) -/

/-- An accepted LEARN (R55): the job and the accumulator; the job is an arrival (R27). -/
def startLearn (p : Port) (tag : Byte) (n : LineNo) (s : State) : State :=
  let j : LearnJob := ⟨n, s.requester p tag .learn, 0⟩
  let s := s.setLine n { s.line n with learn := some ⟨0, 0⟩ }
  arrival { s with chan.job := some j }

/-- LEARN's checks (R55). -/
def learnLine (p : Port) (tag : Byte) (n : LineNo) (s : State) : State × Reply :=
  if s.emergency then (s, bare .emergency)
  else if !s.runs then (s, bare .notRunning)
  else if s.chan.job.isSome then (s, bare .busy)
  else if (s.line n).state ≠ .connected then (s, bare .wrongState)
  else accept p (startLearn p tag n s)

/-- LEARN (R55). -/
def execLearn (p : Port) (tag : Byte) (payload : List Byte) (s : State) : Host.Outcome State Fault Refusal :=
  takeRequest .learn p payload (onLine payload (learnLine p tag)) s

end Sys2Proof.Machine
end

