-- ==== Sys2Proof/Machine/AmpRequests.lean ====
section
/-! DEFINITION. The requests on one amplifier: COVER, RETURN, ENABLE_AMP, DISABLE_AMP and CONFIGURE_AMP (R70, R83, R84,
R102, R103). -/

namespace Sys2Proof.Machine

/-- A request on one amplifier: a number above 5 is refused with BAD_SUBJECT. -/
def onAmp (payload : List Byte) (act : AmpNo → State → State × Reply) (s : State) : State × Reply :=
  match ampNo? (byteAt payload 0) with
  | none => (s, bare .badSubject)
  | some k => act k s

/-! ### COVER and RETURN (R102, R103) -/

/-- A MANUAL entry joins with a new sequence number, and a grant attempt follows (R102, R103). -/
def joinManual (kind : CoKind) (d : AmpNo) (r : Requester) (s : State) : State :=
  let (q, s) := takeSeq s
  grantAttempt arrival (joinEntry ⟨d, kind, .manual, some r, q⟩ s)

/-- Some amplifier is configured STANDBY and enabled (R102). -/
def State.hasStandby (s : State) : Bool :=
  allAmps.any fun k => (s.amp k).cfg.role = .standby && (s.amp k).cfg.enabled

/-- `d` has a queued entry or is the duty amplifier of the operation in flight (R102, R103). -/
def Changeover.engaged (c : Changeover) (d : AmpNo) : Bool := (c.entryOf d).isSome || c.operatesOn d

/-- COVER's checks (R102). -/
def coverAmp (p : Port) (tag : Byte) (d : AmpNo) (s : State) : State × Reply :=
  if s.emergency then (s, bare .emergency)
  else if !s.runs then (s, bare .notRunning)
  else if s.co.engaged d then (s, bare .noChange)
  else if (s.amp d).cfg.role ≠ .duty ∨ ((s.amp d).state ≠ .healthy ∧ (s.amp d).state ≠ .suspect) then
    (s, bare .wrongState)
  else if !s.hasStandby then (s, bare .noStandby)
  else accept p (joinManual .cover d (s.requester p tag .cover) s)

/-- COVER (R102). -/
def execCover (p : Port) (tag : Byte) (payload : List Byte) (s : State) : Host.Outcome State Fault Refusal :=
  takeRequest .cover p payload (onAmp payload (coverAmp p tag)) s

/-- RETURN's checks (R103). -/
def returnAmp (p : Port) (tag : Byte) (d : AmpNo) (s : State) : State × Reply :=
  if s.emergency then (s, bare .emergency)
  else if !s.runs then (s, bare .notRunning)
  else if s.co.engaged d then (s, bare .noChange)
  else if (s.amp d).state ≠ .covered ∧ (s.amp d).state ≠ .relieved then (s, bare .wrongState)
  else accept p (joinManual .returnLines d (s.requester p tag .returnLines) s)

/-- RETURN (R103). -/
def execReturnLines (p : Port) (tag : Byte) (payload : List Byte) (s : State) : Host.Outcome State Fault Refusal :=
  takeRequest .returnLines p payload (onAmp payload (returnAmp p tag)) s

/-! ### ENABLE_AMP (R83) -/

/-- What ENABLE_AMP does to a DISABLED amplifier (R83). -/
def bringAmp (k : AmpNo) (s : State) : State :=
  let role := (s.amp k).cfg.role
  let s := s.setAmp k { s.amp k with cfg.enabled := true }
  let s := setAmpState k (match role with | .duty => .healthy | .standby => .free) s
  let s :=
    s.setAmp k
      { s.amp k with
        condition := .normal, candidate := none, count := 0, lastAc := none, lastProt := none, carrying := k }
  match role with
  | .duty => s
  | .standby => grantAttempt arrival s

/-- ENABLE_AMP by the state of the amplifier (R83). -/
def enableAmp (k : AmpNo) (s : State) : State × Reply :=
  if (s.amp k).state ≠ .disabled then (s, bare .noChange) else (bringAmp k s, bare .ok)

/-- ENABLE_AMP (R83). -/
def execEnableAmp (p : Port) (payload : List Byte) (s : State) : Host.Outcome State Fault Refusal :=
  takeRequest .enableAmp p payload (onAmp payload enableAmp) s

/-! ### DISABLE_AMP (R84) -/

/-- An enabled line has the amplifier as its home or current amplifier (R84). -/
def State.homesEnabled (s : State) (k : AmpNo) : Bool :=
  allLines.any fun n => (s.line n).cfg.enabled && ((s.line n).cfg.home = k || (s.line n).current = k)

/-- The amplifier is the subject of the operation in flight, covered, returned or covering (R84). The standby that a return
records counts as covering to the operation's end, also where it has meanwhile failed or become FREE. DEDUCED, log entry
31; unsafe. -/
def Changeover.involves (c : Changeover) (k : AmpNo) : Bool := c.op.any fun o => o.duty = k || o.standby = k

/-- The amplifier is in use (R84). -/
def State.ampInUse (s : State) (k : AmpNo) : Bool :=
  s.homesEnabled k || (s.amp k).state = .busy || (s.co.entryOf k).isSome || s.co.involves k

/-- The lines on `x` take `d` as their current amplifier (R84.5). R84 gives no selector order because each such line is
DISABLED; one that is CONNECTED all the same (its home is the standby, after a load without a DUTY amplifier) has its selector
ordered to the bus of `d` in the same step, as R4 says of every change of current amplifier on a CONNECTED line. That R4 and
not R84.5 holds for it: DEDUCED, log entry 33; unsafe. -/
def takeLinesHome (x d : AmpNo) (s : State) : State :=
  (allLines.filter fun n => (s.line n).current = x).foldl (moveLine d) s

/-- The covering standby `x` of a disabled duty amplifier `k` is let go (R84.5). A move whose last relay operation the orders
have superseded is reported after the whole (R7, log entry 17). -/
def releaseStandby (k x : AmpNo) (s : State) : State :=
  let s := dropCover k (setCarrying k k (takeLinesHome x k s))
  reportMove arrival (grantAttempt arrival (dropCovered x (setAmpState x .free s)))

/-- What DISABLE_AMP does to an amplifier that is not in use (R84). -/
def removeAmp (k : AmpNo) (s : State) : State :=
  let before := s.amp k
  let s := setAmpState k .disabled s
  let s :=
    s.setAmp k
      { s.amp k with
        cfg.enabled := false, condition := .normal, candidate := none, count := 0, lastAc := none, lastProt := none }
  let s := withdrawConfirm (.amp k) s
  let s := [FaultKey.ampFail k, .noCover k, .storeFault (.amp k)].foldl (fun s key => clear key none s) s
  match before.coveringStandby with
  | some x => if before.state = .covered ∨ before.state = .relieved then releaseStandby k x s else s
  | none => s

/-- DISABLE_AMP's checks (R84). -/
def disableAmp (k : AmpNo) (s : State) : State × Reply :=
  if s.emergency then (s, bare .emergency)
  else if (s.amp k).state = .disabled then (s, bare .noChange)
  else if s.ampInUse k then (s, bare .inUse)
  else (removeAmp k s, bare .ok)

/-- DISABLE_AMP (R84). -/
def execDisableAmp (p : Port) (payload : List Byte) (s : State) : Host.Outcome State Fault Refusal :=
  takeRequest .disableAmp p payload (onAmp payload disableAmp) s

/-! ### CONFIGURE_AMP (R70) -/

/-- A line names the amplifier as its home or current amplifier, or another duty amplifier as its carrying amplifier
(R70; DEDUCED for "another", log entry 18). -/
def State.ampNamed (s : State) (k : AmpNo) : Bool :=
  (allLines.any fun n => (s.line n).cfg.home = k || (s.line n).current = k)
    || allAmps.any fun d => d ≠ k && (s.amp d).cfg.role = .duty && (s.amp d).carrying = k

/-- CONFIGURE_AMP's checks and effect (R70). -/
def configureAmp (payload : List Byte) (k : AmpNo) (s : State) : State × Reply :=
  let x := s.amp k
  let asked := ampFieldsAt payload 1 x.cfg.enabled
  if s.emergency then (s, bare .emergency)
  else if x.state ≠ .disabled then (s, bare .wrongState)
  else if asked.role ≠ x.cfg.role ∧ s.ampNamed k then (s, bare .inUse)
  else (s.setAmp k { x with cfg := asked.clamp }, bare (if asked.clamp = asked then .ok else .clamped))

/-- CONFIGURE_AMP (R70). -/
def execConfigureAmp (p : Port) (payload : List Byte) (s : State) : Host.Outcome State Fault Refusal :=
  takeRequest .configureAmp p payload (onAmp payload (configureAmp payload)) s

end Sys2Proof.Machine
end

