-- ==== Sys2Proof/Machine/ModeRequests.lean ====
section
/-! DEFINITION. The requests to mode control and the baseline store: START, STOP, EMERGENCY_ON, EMERGENCY_OFF,
CONFIGURE_SYSTEM and STORE (R152, R153, R156, R167, R180). -/

namespace Sys2Proof.Machine

/-- START by the mode (R152); LOADING is refused by the port interface (R173). -/
def startMode (s : State) : State × Reply :=
  match s.mc.mode with
  | .loading => (s, bare .notRunning)
  | .standby => (enterSettling true s, bare .ok)
  | .settling | .active => (s, bare .noChange)
  | .stopping => (s, bare .wrongState)

/-- START (R152). -/
def execStart (p : Port) (payload : List Byte) (s : State) : Host.Outcome State Fault Refusal :=
  takeRequest .start p payload startMode s

/-- STOP's checks (R153). -/
def stopMode (s : State) : State × Reply :=
  if s.mc.mode = .loading then (s, bare .notRunning)
  else if s.emergency then (s, bare .emergency)
  else if s.mc.mode = .standby ∨ s.mc.mode = .stopping then (s, bare .noChange)
  else if s.alarmPending then (s, bare .alarmPending)
  else (enterStopping s, bare .ok)

/-- STOP (R153). -/
def execStop (p : Port) (payload : List Byte) (s : State) : Host.Outcome State Fault Refusal :=
  takeRequest .stop p payload stopMode s

/-- EMERGENCY_ON (R156). -/
def execEmergencyOn (p : Port) (payload : List Byte) (s : State) : Host.Outcome State Fault Refusal :=
  takeRequest .emergencyOn p payload
    (fun s => if s.flag p then (s, bare .noChange) else (setFlag p true s, bare .ok)) s

/-- EMERGENCY_OFF (R156). -/
def execEmergencyOff (p : Port) (payload : List Byte) (s : State) : Host.Outcome State Fault Refusal :=
  takeRequest .emergencyOff p payload
    (fun s =>
      if s.flag p then (endEmergencyIfOver s (setFlag p false s), bare .ok) else (s, bare .noChange)) s

/-- CONFIGURE_SYSTEM's check and effect (R180). -/
def configureSystem (payload : List Byte) (s : State) : State × Reply :=
  let asked := systemFieldsAt payload 0
  if s.emergency then (s, bare .emergency)
  else ({ s with mc.sys := asked.clamp }, bare (if asked.clamp = asked then .ok else .clamped))

/-- CONFIGURE_SYSTEM (R180). -/
def execConfigureSystem (p : Port) (payload : List Byte) (s : State) : Host.Outcome State Fault Refusal :=
  takeRequest .configureSystem p payload (configureSystem payload) s

/-- An accepted STORE (R167): the bytes built now, the write in flight, the record WRITING. -/
def startWrite (p : Port) (tag : Byte) (k : RecordNo) (s : State) : State :=
  setStatus k { s.recordStatus k with condition := .writing }
    { s with store.write := some ⟨k, s.requester p tag .store, buildRecord k s, writeMs⟩ }

/-- STORE's checks (R167). -/
def storeRecord (p : Port) (tag : Byte) (payload : List Byte) (s : State) : State × Reply :=
  match recordNo? (byteAt payload 0) with
  | none => (s, bare .badSubject)
  | some k =>
    if s.store.write.isSome then (s, bare .busy)
    else if s.mc.supply = .low then (s, bare .lowSupply)
    else accept p (startWrite p tag k s)

/-- STORE (R167). -/
def execStore (p : Port) (tag : Byte) (payload : List Byte) (s : State) : Host.Outcome State Fault Refusal :=
  takeRequest .store p payload (storeRecord p tag payload) s

end Sys2Proof.Machine
end

