-- ==== Sys2Proof/Machine/Events.lean ====
section
/-! DEFINITION. The commands that are not requests of the table: frames refused or cut short, resets and the load, the
EMERG and supply inputs, and the events of the channel, the relays, the timers and the store device; and the passing of
a millisecond. An event that the present state makes impossible is no event (log entry 6). -/

namespace Sys2Proof.Machine

/-! ### Frames (R172, R173) -/

/-- UNKNOWN_REQUEST (R173): a length above 32 is BAD_FRAME, a code that is not in the table UNKNOWN_REQUEST. A known code
within the length is a frame of its own row, and no event of this one (log entry 10). -/
def execUnknownRequest (p : Port) (code length : Byte) (s : State) : Host.Outcome State Fault Refusal :=
  takeEvent
    (fun s =>
      if 32 < length.toNat then s.answer p (bare .badFrame)
      else if knownCode code then s
      else s.answer p (bare .unknownRequest)) s

/-- FRAME_ABORTED (R172): the bytes received are discarded and nothing changes. -/
def execFrameAborted (_p : Port) (_received : List Byte) (s : State) : Host.Outcome State Fault Refusal :=
  takeEvent (fun s => s) s

/-! ### Resets (R160) -/

/-- The areas after a reset (R170): that of a record whose write was cut off holds no record that passes. -/
def State.cutOff (s : State) : Vector Area 23 :=
  match s.store.write with
  | some w => s.store.areas.set w.record.val .cutOff w.record.isLt
  | none => s.store.areas

/-- A reset of a kind begins, or extends the one in force (R160): every block takes its values after reset. The EMERG
level, the supply state and the cause are set at the reset's end; the nonvolatile areas and the waiting commands stand
(log entries 2, 7). -/
def beginReset (kind : ResetKind) (s : State) : State :=
  let below := kind = .powerOn || s.mc.resetInForce.any (·.belowPowerOn)
  { State.reset with
    store := { resetStore with areas := s.cutOff }
    mc :=
      { resetMode with
        emergInput := s.mc.emergInput, supply := s.mc.supply, cause := s.mc.cause,
        resetInForce := some ⟨below, kind⟩ }
    freeUses := s.freeUses, pending := s.pending }

/-- POWER_ON (R160). -/
def execPowerOn (s : State) : Host.Outcome State Fault Refusal := .next (beginReset .powerOn s)

/-- BROWN_OUT (R159, R160). -/
def execBrownOut (s : State) : Host.Outcome State Fault Refusal := .next (beginReset .brownOut s)

/-- RESET_PIN (R160). -/
def execResetPin (s : State) : Host.Outcome State Fault Refusal := .next (beginReset .resetPin s)

/-- The cause at the end of a reset (R160). -/
def ResetInForce.cause (r : ResetInForce) : ResetKind :=
  if r.belowPowerOn then .powerOn
  else r.last

/-- The end of a reset (R148, R159, R160): the cause, the EMERG level and the supply state; LOW_SUPPLY raised if LOW. The
load begins. -/
def endReset (r : ResetInForce) (supplyLow emerg : Bool) (s : State) : State :=
  let s :=
    { s with
      mc.cause := r.cause
      mc.emergInput := emerg
      mc.supply := if supplyLow then .low else .normal
      mc.resetInForce := none }
  if supplyLow then raise .lowSupply none s else s

/-- RESET_END (R160). -/
def execResetEnd (supplyLow emerg : Bool) (s : State) : Host.Outcome State Fault Refusal :=
  match s.mc.resetInForce with
  | some r => .next (endReset r supplyLow emerg s)
  | none => .next s

/-! ### The load (R166) -/

/-- RECORD_READ (R166): an answer the store can give is judged, and the next read begins. -/
def execRecordRead (answer : List Byte) (s : State) : Host.Outcome State Fault Refusal :=
  takeEvent
    (fun s =>
      match s.reading with
      | none => s
      | some k =>
        if s.canAnswer k answer then settleRecord k answer (judgeRecord k answer) (setArea k (.known answer) s) else s) s

/-- UNREADABLE (R166). -/
def execUnreadable (s : State) : Host.Outcome State Fault Refusal :=
  takeEvent
    (fun s =>
      match s.reading with
      | none => s
      | some k => settleRecord k [] .unreadable s) s

/-! ### Inputs (R156, R159) -/

/-- EMERG_ASSERTED (R156): at the beginning of emergency nothing is told (R157). -/
def execEmergAsserted (s : State) : Host.Outcome State Fault Refusal :=
  takeEvent (fun s => { s with mc.emergInput := true }) s

/-- EMERG_RELEASED (R156, R158). -/
def execEmergReleased (s : State) : Host.Outcome State Fault Refusal :=
  takeEvent (fun s => endEmergencyIfOver s { s with mc.emergInput := false }) s

/-- SUPPLY_FALLS (R159). -/
def execSupplyFalls (s : State) : Host.Outcome State Fault Refusal :=
  takeEvent
    (fun s => if s.mc.supply = .normal then raise .lowSupply none { s with mc.supply := .low } else s) s

/-- SUPPLY_RISES (R159). -/
def execSupplyRises (s : State) : Host.Outcome State Fault Refusal :=
  takeEvent
    (fun s => if s.mc.supply = .low then clear .lowSupply none { s with mc.supply := .normal } else s) s

/-! ### The channel, the relays and the timers (R5, R9, R31, R36) -/

/-- MEASUREMENT_COMPLETION (R36). -/
def execMeasurementCompletion (r : Reading) (s : State) : Host.Outcome State Fault Refusal :=
  takeEvent
    (fun s =>
      match s.chan.inFlight with
      | none => s
      | some m => if r.fits m.target then completeMeasurement m r s else s) s

/-- The round in progress has an empty slot list (R31). -/
def State.emptyRound (s : State) : Bool := s.chan.round.any (·.slots.isEmpty)

/-- EMPTY_ROUND_EXPIRY (R31). -/
def execEmptyRoundExpiry (s : State) : Host.Outcome State Fault Refusal :=
  takeEvent (fun s => if s.emptyRound then arrival (endRound s) else s) s

/-- A relay operation completes (R5): the channel is told first, then the move (R7). -/
def relayDone (n : LineNo) (s : State) : State :=
  let s := arrival (s.setLine n { s.line n with relayLeft := none })
  reportMove arrival { s with move := s.move.map (·.filter (· ≠ n)) }

/-- RELAY_COMPLETION (R5). -/
def execRelayCompletion (n : LineNo) (s : State) : Host.Outcome State Fault Refusal :=
  takeEvent (fun s => if (s.line n).moving then relayDone n s else s) s

/-- A running retry timer expires (R9). -/
def expireRetry (n : LineNo) (s : State) : State :=
  let s := s.setLine n { s.line n with timer := .idle }
  if s.emergency then s.setLine n { s.line n with probeDue := true } else startProbe arrival n s

/-- RETRY_EXPIRY (R9). -/
def execRetryExpiry (n : LineNo) (s : State) : Host.Outcome State Fault Refusal :=
  takeEvent
    (fun s =>
      match (s.line n).timer with
      | .running _ => reportMove arrival (expireRetry n s)
      | _ => s) s

/-! ### The store device (R168) -/

/-- The subject of a record is a line or an amplifier that is DISABLED (R168). -/
def State.subjectDisabled (s : State) : StoreSubject → Bool
  | .line n => (s.line n).state = .disabled
  | .amp k => (s.amp k).state = .disabled
  | .system => false

/-- The write in flight has completed (R168). -/
def writeDone (w : WriteInFlight) (s : State) : State :=
  let s := setArea w.record (.known w.bytes) { s with store.write := none }
  let s := setStatus w.record { s.recordStatus w.record with condition := .valid } s
  complete w.requester .storeDone (clear (.storeFault (subjectOf w.record)) none s)

/-- A report of a write that has timed out has arrived; it is no event (R168). -/
def lateReport (s : State) : State := { s with store.reportsDue := s.store.reportsDue - 1 }

/-- WRITE_COMPLETION (R168): the end of the write in flight, and no event while none is in flight. A report that arrives while
one of a timed-out write may still come is that late one, and no event, or the end of the write in flight: a free value
says which. DESIGN CHOICE, log entry 32; safe. -/
def execWriteCompletion (s : State) : Host.Outcome State Fault Refusal :=
  takeEvent
    (fun s =>
      match s.store.write with
      | none => lateReport s
      | some w =>
        if s.store.reportsDue = 0 then writeDone w s
        else
          let t := { s with freeUses := s.freeUses + 1 }
          if Config.reportIsLate s.freeUses then lateReport t else writeDone w t) s

/-- The write in flight has timed out (R168); the content of its area is no longer known, and its report may still arrive. -/
def writeTimedOut (w : WriteInFlight) (s : State) : State :=
  let s := setArea w.record .unknown { s with store.write := none, store.reportsDue := s.store.reportsDue + 1 }
  let s := setStatus w.record { s.recordStatus w.record with condition := .writeFailed } s
  let x := subjectOf w.record
  complete w.requester .storeTimeout (if s.subjectDisabled x then s else raise (.storeFault x) none s)

/-- WRITE_TIMEOUT (R168). -/
def execWriteTimeout (s : State) : Host.Outcome State Fault Refusal :=
  takeEvent
    (fun s =>
      match s.store.write with
      | some w => writeTimedOut w s
      | none => s) s

/-! ### The passing of a millisecond (log entries 1, 8) -/

/-- A time that runs: one millisecond less, and never below 1, since its end is an event of the table. -/
def countDown (ms : Nat) : Nat := max 1 (ms - 1)

/-- One millisecond on a line: its relay operation and its retry timer, if running (R5, R9). -/
def Line.tick (l : Line) : Line :=
  { l with
    relayLeft := l.relayLeft.map countDown
    timer := match l.timer with | .running ms => .running (countDown ms) | t => t }

/-- One millisecond on the part: every time that runs (R5, R9, R21, R31, R166, R168). -/
def tick (s : State) : State :=
  if s.mc.resetInForce.isSome then s
  else
    { s.mapLines Line.tick with
      chan :=
        { s.chan with
          inFlight := s.chan.inFlight.map fun m => { m with left := countDown m.left }
          round := s.chan.round.map fun r => { r with left := countDown r.left } }
      store :=
        { s.store with
          readLeft := countDown s.store.readLeft
          write := s.store.write.map fun w => { w with left := countDown w.left } } }

end Sys2Proof.Machine
end

