-- ==== Sys2Proof/Machine/Dispatch.lean ====
section
/-! DEFINITION. The meaning of each command: one call per row of spec/opcode_table.json. -/

namespace Sys2Proof.Machine

/-- The effect of a command on everything but the queue of waiting commands. -/
def exec (i : Instr) (s : State) : Host.Outcome State Fault Refusal :=
  match i with
  | .status p _ payload => Sys2Proof.Machine.execStatus p payload s
  | .identify p _ payload => Sys2Proof.Machine.execIdentify p payload s
  | .readLine p _ payload => Sys2Proof.Machine.execReadLine p payload s
  | .readAmp p _ payload => Sys2Proof.Machine.execReadAmp p payload s
  | .readRecord p _ payload => Sys2Proof.Machine.execReadRecord p payload s
  | .listRecords p _ payload => Sys2Proof.Machine.execListRecords p payload s
  | .readQueue p _ payload => Sys2Proof.Machine.execReadQueue p payload s
  | .listen p _ payload => Sys2Proof.Machine.execListen p payload s
  | .leave p _ payload => Sys2Proof.Machine.execLeave p payload s
  | .setNotify p _ payload => Sys2Proof.Machine.execSetNotify p payload s
  | .fetch p _ payload => Sys2Proof.Machine.execFetch p payload s
  | .peek p _ payload => Sys2Proof.Machine.execPeek p payload s
  | .done p _ payload => Sys2Proof.Machine.execDone p payload s
  | .doneClass p _ payload => Sys2Proof.Machine.execDoneClass p payload s
  | .readCompletion p _ payload => Sys2Proof.Machine.execReadCompletion p payload s
  | .resetPort p _ payload => Sys2Proof.Machine.execResetPort p payload s
  | .ack p _ payload => Sys2Proof.Machine.execAck p payload s
  | .ackAll p _ payload => Sys2Proof.Machine.execAckAll p payload s
  | .isolate p _ payload => Sys2Proof.Machine.execIsolate p payload s
  | .restore p tag payload => Sys2Proof.Machine.execRestore p tag payload s
  | .enableLine p _ payload => Sys2Proof.Machine.execEnableLine p payload s
  | .disableLine p _ payload => Sys2Proof.Machine.execDisableLine p payload s
  | .configureLine p _ payload => Sys2Proof.Machine.execConfigureLine p payload s
  | .learn p tag payload => Sys2Proof.Machine.execLearn p tag payload s
  | .cover p tag payload => Sys2Proof.Machine.execCover p tag payload s
  | .returnLines p tag payload => Sys2Proof.Machine.execReturnLines p tag payload s
  | .enableAmp p _ payload => Sys2Proof.Machine.execEnableAmp p payload s
  | .disableAmp p _ payload => Sys2Proof.Machine.execDisableAmp p payload s
  | .configureAmp p _ payload => Sys2Proof.Machine.execConfigureAmp p payload s
  | .start p _ payload => Sys2Proof.Machine.execStart p payload s
  | .stop p _ payload => Sys2Proof.Machine.execStop p payload s
  | .emergencyOn p _ payload => Sys2Proof.Machine.execEmergencyOn p payload s
  | .emergencyOff p _ payload => Sys2Proof.Machine.execEmergencyOff p payload s
  | .configureSystem p _ payload => Sys2Proof.Machine.execConfigureSystem p payload s
  | .store p tag payload => Sys2Proof.Machine.execStore p tag payload s
  | .unknownRequest p code _ length => Sys2Proof.Machine.execUnknownRequest p code length s
  | .frameAborted p received => Sys2Proof.Machine.execFrameAborted p received s
  | .powerOn => Sys2Proof.Machine.execPowerOn s
  | .brownOut => Sys2Proof.Machine.execBrownOut s
  | .resetPin => Sys2Proof.Machine.execResetPin s
  | .resetEnd supplyLow emerg => Sys2Proof.Machine.execResetEnd supplyLow emerg s
  | .recordRead answer => Sys2Proof.Machine.execRecordRead answer s
  | .unreadable => Sys2Proof.Machine.execUnreadable s
  | .emergAsserted => Sys2Proof.Machine.execEmergAsserted s
  | .emergReleased => Sys2Proof.Machine.execEmergReleased s
  | .supplyFalls => Sys2Proof.Machine.execSupplyFalls s
  | .supplyRises => Sys2Proof.Machine.execSupplyRises s
  | .measurementCompletion r => Sys2Proof.Machine.execMeasurementCompletion r s
  | .emptyRoundExpiry => Sys2Proof.Machine.execEmptyRoundExpiry s
  | .relayCompletion n => Sys2Proof.Machine.execRelayCompletion n s
  | .retryExpiry n => Sys2Proof.Machine.execRetryExpiry n s
  | .writeCompletion => Sys2Proof.Machine.execWriteCompletion s
  | .writeTimeout => Sys2Proof.Machine.execWriteTimeout s

end Sys2Proof.Machine
end

