-- ==== Sys2Proof/WellFormed.lean ====
section
/-! DEFINITION. The commands that can come about: which payloads a frame can carry, which frames are unknown or cut
short, and which answers the store and the front end can give. `exec` is total on ill-formed commands too. -/

namespace Sys2Proof

/-- A request's payload is at most 32 bytes: a frame with a longer length byte is taken at that byte, without a payload
(R171, R173). -/
def payloadOk (payload : List Byte) : Bool := decide (payload.length ≤ 32)

/-- The request frame begun by these bytes has not been taken yet (R172): it lacks its length byte, or its length byte is
at most 32 and the payload is short of it. -/
def frameIncomplete (received : List Byte) : Bool :=
  match received with
  | _ :: _ :: n :: payload => decide (n.toNat ≤ 32 ∧ payload.length < n.toNat)
  | _ => true

/-- A reading the front end can give: the comparator's trip overranges the code (R23, R62). -/
def Reading.wellFormed : Reading → Bool
  | .earth lc trip => !trip || decide (lc = 4095)
  | .line .. | .amp .. => true

/-- A command that can come about. -/
def Instr.wellFormed : Instr → Bool
  | .status _ _ b | .identify _ _ b | .readLine _ _ b | .readAmp _ _ b | .readRecord _ _ b | .listRecords _ _ b
  | .readQueue _ _ b | .listen _ _ b | .leave _ _ b | .setNotify _ _ b | .fetch _ _ b | .peek _ _ b | .done _ _ b
  | .doneClass _ _ b | .readCompletion _ _ b | .resetPort _ _ b | .ack _ _ b | .ackAll _ _ b | .isolate _ _ b
  | .restore _ _ b | .enableLine _ _ b | .disableLine _ _ b | .configureLine _ _ b | .learn _ _ b | .cover _ _ b
  | .returnLines _ _ b | .enableAmp _ _ b | .disableAmp _ _ b | .configureAmp _ _ b | .start _ _ b | .stop _ _ b
  | .emergencyOn _ _ b | .emergencyOff _ _ b | .configureSystem _ _ b | .store _ _ b => payloadOk b
  | .unknownRequest _ code _ length => decide (32 < length.toNat) || !Machine.knownCode code
  | .frameAborted _ received => frameIncomplete received
  | .recordRead answer => [7, 9, 24].contains answer.length
  | .measurementCompletion r => r.wellFormed
  | .powerOn | .brownOut | .resetPin | .resetEnd _ _ | .unreadable | .emergAsserted | .emergReleased | .supplyFalls
  | .supplyRises | .emptyRoundExpiry | .relayCompletion _ | .retryExpiry _ | .writeCompletion | .writeTimeout => true

end Sys2Proof
end

