-- ==== Sys2Proof/Safety.lean ====
section
/-! DEFINITION. What the rules promise of every state: the invariants of each block, and a safe run. -/

namespace Sys2Proof.Machine

/-! ### The fault table (R109, R112, R116, R121, R122, R124) -/

/-- An acknowledging port stands exactly in the two acknowledged lifecycles (R109). -/
def FaultRecord.ackOk (r : FaultRecord) : Bool :=
  r.ackPort.isSome == (r.lifecycle = .activeAck || r.lifecycle = .closed)

/-- A record is NEW only for ports that are listening (R121). -/
def FaultRecord.marksOk (listeners : PerPort Bool) (r : FaultRecord) : Bool :=
  (!r.marks.a || listeners.a) && (!r.marks.b || listeners.b) && (!r.marks.m || listeners.m)

/-- What R109, R121 and R122 promise of one record. -/
def FaultRecord.ok (listeners : PerPort Bool) (r : FaultRecord) : Bool :=
  decide (1 ≤ r.occurrences ∧ r.occurrences ≤ 255) && r.ackOk && r.marksOk listeners && !r.finished

/-- What R112, R115, R116, R122 and R124 promise of the table. -/
def State.tableOk (s : State) : Bool :=
  decide (s.faults.records.length ≤ tableCapacity)
    && decide ((s.faults.records.map (·.key) ++ s.faults.deferred.map (·.key)).Nodup)
    && (s.faults.deferred.isEmpty || decide (s.faults.records.length = tableCapacity))
    && s.faults.full == !s.faults.deferred.isEmpty
    && s.faults.records.all (·.ok s.listeners)

/-! ### The ports (R129, R143) -/

/-- What R129 and R143 promise of one port. -/
def PortState.ok (x : PortState) : Bool :=
  decide (x.outstanding ≤ outstandingLimit) && decide (x.urgent ≤ 8)
    && (x.listening || (decide (x.inService = noClasses) && !x.latch))

/-- What R129, R143 and R175 promise of the ports. -/
def State.portsOk (s : State) : Bool :=
  s.ports.a.ok && s.ports.b.ok && s.ports.m.ok && decide (s.ports.m.outstanding = 0)

/-! ### The queues of the channel (R25, R26) -/

/-- Neither queue holds a subject twice, nor more than 22 (R25, R26). -/
def State.queuesOk (s : State) : Bool :=
  decide s.chan.verify.Nodup && decide s.chan.confirm.Nodup
    && decide (s.chan.verify.length ≤ 22) && decide (s.chan.confirm.length ≤ 22)

/-! ### The working configuration (R163) and the learned sum (R57) -/

/-- A line configuration lies within the stored ranges (1.1, 10.2). -/
def lineConfigOk (c : LineConfig) : Bool :=
  decide (1 ≤ c.gain ∧ c.gain ≤ 4095) && c.zref.all (fun z => decide (1 ≤ z ∧ z ≤ 65534))
    && decide (1 ≤ c.low ∧ c.low ≤ 999) && decide (1 ≤ c.high ∧ c.high ≤ 9999)
    && decide (c.hyst ≤ 255 ∧ c.hyst < min c.low c.high) && decide (c.shortFloor ≤ 65534)
    && decide (c.shift ≤ 4) && decide (1 ≤ c.raiseCount ∧ c.raiseCount ≤ 15)
    && decide (1 ≤ c.clearCount ∧ c.clearCount ≤ 15) && decide (1 ≤ c.threshold ∧ c.threshold ≤ 127)
    && decide (1 ≤ c.retryDelay ∧ c.retryDelay ≤ 255) && decide (1 ≤ c.retryLimit ∧ c.retryLimit ≤ 7)

/-- An amplifier configuration lies within the stored ranges (5.1, 10.2). -/
def ampConfigOk (c : AmpConfig) : Bool :=
  decide (1 ≤ c.amin ∧ c.amin ≤ 4095) && decide (1 ≤ c.raiseCount ∧ c.raiseCount ≤ 15)
    && decide (1 ≤ c.clearCount ∧ c.clearCount ≤ 15)

/-- The system settings lie within the stored ranges (10.2). -/
def systemConfigOk (c : SystemConfig) : Bool :=
  decide (1 ≤ c.earthDivider ∧ c.earthDivider ≤ 16) && decide (1 ≤ c.blindLimit ∧ c.blindLimit ≤ 255)
    && decide (1 ≤ c.settleRounds ∧ c.settleRounds ≤ 15)

/-- A learn accumulator that is present holds fewer than eight samples, each at most 65534 (R56, R57). -/
def Line.learnOk (l : Line) : Bool :=
  l.learn.all fun a => decide (a.count < learnSamples ∧ a.sum ≤ 65534 * a.count)

/-- The working configuration lies within the stored ranges (R163), with what keeps learning within them. -/
def State.configOk (s : State) : Bool :=
  (allLines.all fun n => lineConfigOk (s.line n).cfg && (s.line n).learnOk)
    && (allAmps.all fun k => ampConfigOk (s.amp k).cfg) && systemConfigOk s.mc.sys

/-! ### Line and amplifier records (1.1, R48, R65, R76) -/

/-- The isolation cause agrees with the state (1.1, "Runtime fields"). -/
def Line.causeOk (l : Line) : Bool :=
  match l.state with
  | .connected | .probing | .disabled => l.cause = .noCause
  | .isolated => l.cause = .protective || l.cause = .command
  | .locked => l.cause = .lockout

/-- A debounce that holds a candidate has a count below the one required; without one, the count is 0 (R48, R65). -/
def debounceOk {α : Type} (candidate : Option α) (count : Nat) (required : α → Nat) : Bool :=
  match candidate with
  | none => decide (count = 0)
  | some c => decide (1 ≤ count ∧ count < required c)

/-- A line whose timer runs or is frozen is ISOLATED, one with probe due ISOLATED or LOCKED, one with a waiting RESTORE
one of these or PROBING; a DISABLED line has no earth debounce (R9, R11, R13 to R16, R19). -/
def Line.restsOk (l : Line) : Bool :=
  match l.state with
  | .isolated => true
  | .locked => l.timer = .idle
  | .probing => l.timer = .idle && !l.probeDue
  | .connected => l.timer = .idle && !l.probeDue && l.waiting.isNone
  | .disabled => l.timer = .idle && !l.probeDue && l.waiting.isNone && l.earthCandidate.isNone

/-- What the chapters promise of one line record. -/
def Line.ok (l : Line) : Bool :=
  l.causeOk && debounceOk l.candidate l.count (requiredCount l.cfg)
    && debounceOk l.earthCandidate l.earthCount (requiredEarth l.cfg)
    && (l.state = .connected || l.candidate.isNone) && l.restsOk && decide (l.masked ≤ 255)

/-- What the chapters promise of one amplifier record. -/
def Amp.ok (x : Amp) : Bool :=
  debounceOk x.candidate x.count (requiredCondition x.cfg) && (x.state ≠ .disabled || x.candidate.isNone)

/-- The line and amplifier records are in order, and during LOADING every one is DISABLED (R3, R72). -/
def State.recordsOk (s : State) : Bool :=
  (allLines.all fun n => (s.line n).ok && (s.mc.mode ≠ .loading || (s.line n).state = .disabled))
    && (allAmps.all fun k => (s.amp k).ok && (s.mc.mode ≠ .loading || (s.amp k).state = .disabled))

/-! ### Selectors (R4) -/

/-- The position a selector takes in a state (R4): HOME in LOADING, otherwise by the state of its line. -/
def restPosition (mode : Mode) (l : Line) : Selector :=
  if mode = .loading then .home
  else
    match l.state with
    | .disabled | .isolated | .locked => .off
    | .probing => .test
    | .connected => .bus l.current

/-- Every selector is at, or moving to, the position of its line's state (R4). -/
def State.selectorsOk (s : State) : Bool :=
  allLines.all fun n => (s.line n).selector = restPosition s.mc.mode (s.line n)

/-! ### The mode (R28, R35, R151, R154, R155) -/

/-- What the mode promises of the channel and the changeover unit. -/
def State.modeOk (s : State) : Bool :=
  decide (s.mc.settleCount ≤ 15) && s.chan.round.isSome == s.runs && (s.runs || s.chan.confirm.isEmpty)
    && ((s.mc.mode ≠ .loading && s.mc.mode ≠ .standby) || (s.chan.inFlight.isNone && s.co.op.isNone))

/-! ### The changeover queue (R87) -/

/-- The queue is in its order, holds no amplifier twice, none that is operated on, and at most six (R87). -/
def State.changeoverOk (s : State) : Bool :=
  decide (s.co.queue.Pairwise fun x y => y.before x = false) && decide (s.co.queue.map (·.duty)).Nodup
    && (s.co.queue.all fun e => !s.co.operatesOn e.duty) && decide (s.co.queue.length ≤ 6)

/-! ### The baseline store (R162, R166, R176) -/

/-- Record `k` is the one being written. -/
def State.writes (s : State) (k : RecordNo) : Bool := s.store.write.any (·.record = k)

/-- A record's condition is WRITING exactly while a write of it is in flight; no write runs during LOADING, and the count
of judged records stands at 23 from its end (R162, R166, R176). -/
def State.storeOk (s : State) : Bool :=
  (allRecords.all fun k => ((s.recordStatus k).condition = .writing) == s.writes k)
    && (if s.mc.mode = .loading then s.store.write.isNone && decide (s.store.judged < 23)
      else decide (s.store.judged = 23))

/-! ### Words the statements use -/

/-- The port interface passes a request on to its owning block (R172, R173): no reset is in force, the payload has the
request's length, the port may issue it, the mode admits it, and a long one is within the limit. -/
abbrev State.takes (s : State) (q : Request) (p : Port) (payload : List Byte) : Prop :=
  s.mc.resetInForce = none ∧ payload.length = q.payloadLen ∧ (p = .m → q.openToM = true)
    ∧ (s.mc.mode = .loading → q.inLoading = true) ∧ (q.long = true → (s.port p).outstanding < 4)

/-- The payload that names line `n`. -/
def linePayload (n : LineNo) : List Byte := [BitVec.ofNat 8 n.val]

/-- The payload that names amplifier `k`. -/
def ampPayload (k : AmpNo) : List Byte := [BitVec.ofNat 8 k.val]

/-- The payload that names record `k`. -/
def recordPayload (k : RecordNo) : List Byte := [BitVec.ofNat 8 k.val]

/-- The frame of a request of the table. -/
def requestFrame (q : Request) (p : Port) (tag : Byte) (b : List Byte) : Instr :=
  match q with
  | .status => .status p tag b | .identify => .identify p tag b | .readLine => .readLine p tag b
  | .readAmp => .readAmp p tag b | .readRecord => .readRecord p tag b | .listRecords => .listRecords p tag b
  | .readQueue => .readQueue p tag b | .listen => .listen p tag b | .leave => .leave p tag b
  | .setNotify => .setNotify p tag b | .fetch => .fetch p tag b | .peek => .peek p tag b | .done => .done p tag b
  | .doneClass => .doneClass p tag b | .readCompletion => .readCompletion p tag b | .resetPort => .resetPort p tag b
  | .ack => .ack p tag b | .ackAll => .ackAll p tag b | .isolate => .isolate p tag b | .restore => .restore p tag b
  | .enableLine => .enableLine p tag b | .disableLine => .disableLine p tag b
  | .configureLine => .configureLine p tag b | .learn => .learn p tag b | .cover => .cover p tag b
  | .returnLines => .returnLines p tag b | .enableAmp => .enableAmp p tag b | .disableAmp => .disableAmp p tag b
  | .configureAmp => .configureAmp p tag b | .start => .start p tag b | .stop => .stop p tag b
  | .emergencyOn => .emergencyOn p tag b | .emergencyOff => .emergencyOff p tag b
  | .configureSystem => .configureSystem p tag b | .store => .store p tag b

/-- What an order for a position makes of a line record (R5): nothing where the position is held or being moved to. -/
def Line.sentTo (l : Line) (pos : Selector) : Line :=
  if l.selector = pos then l else { l with selector := pos, relayLeft := some 12, epoch := l.epoch + 1 }

/-- `m` is the record `l` but for what a move of lines, a selector order, the end of a learn job and a change of mode may
touch: current amplifier, selector, its relay operation, epoch, accumulator and timer. -/
abbrev Line.keptIn (l m : Line) : Prop :=
  m = { l with
    current := m.current, selector := m.selector, relayLeft := m.relayLeft, epoch := m.epoch, learn := m.learn,
    timer := m.timer }

/-- `y` is the record `x` but for what the changeover unit may touch: state, stamp, the amplifiers it is paired with, the
cover sequence and the carrying amplifier. -/
abbrev Amp.keptIn (x y : Amp) : Prop :=
  y = { x with
    state := y.state, stamp := y.stamp, coveredAmp := y.coveredAmp, coveringStandby := y.coveringStandby,
    coverSeq := y.coverSeq, carrying := y.carrying }

/-- The retry timer of a line where R8, R14 and R20 start it: with the full delay where auto retry is yes and the retry count is
below the limit, running in SETTLING and ACTIVE and frozen otherwise (R9); it stands as it is where they do not. -/
def Line.timerAfterShort (l : Line) (runs : Bool) : RetryTimer :=
  if l.cfg.autoRetry = true ∧ l.retryCount < l.cfg.retryLimit then
    if runs then .running (l.cfg.retryDelay * 1000) else .frozen (l.cfg.retryDelay * 1000)
  else l.timer

/-- A timer is `u`, or `u` frozen where supervision did not run (a mode that ends in STANDBY freezes every one, R9). -/
def RetryTimer.restsAs (timer u : RetryTimer) (runs : Bool) : Bool := timer = u || (!runs && timer = u.freeze)

/-- The learn job runs on line `n` (R27). -/
def State.learnsOn (s : State) (n : LineNo) : Bool := s.chan.job.any (·.line = n)

/-- The move that is waited for, if any, waits for a line other than `n` too (R7): nothing done to `n` ends it. -/
def State.moveOutlasts (s : State) (n : LineNo) : Bool := s.move.all fun l => l.any (· ≠ n)

/-- The record of a key is in the table and active (R109). -/
def State.holdsActive (s : State) (k : FaultKey) : Bool :=
  s.faults.records.any fun r => r.key = k && (r.lifecycle = .activeUnack || r.lifecycle = .activeAck)

/-- Taking a source of emergency out of force, from `s` to `u`, ends no emergency that the line supervisor or the changeover
unit acts on: it was not in force, it still is, or the mode does not run (R156, R158). -/
abbrev State.emergencyStands (s u : State) : Prop := s.emergency = false ∨ u.emergency = true ∨ s.runs = false

/-- What the end of emergency leaves (R158), from `s`, over `u` with the source taken out, to `t`: the sources as in `u`, and
where it ends in SETTLING or ACTIVE the probe of every due line started, with no other line's state changed. -/
abbrev State.emergencyLeaves (s u t : State) : Prop :=
  t.mc.emergInput = u.mc.emergInput ∧ t.mc.flagA = u.mc.flagA ∧ t.mc.flagB = u.mc.flagB ∧ t.store = s.store
    ∧ (¬s.emergencyStands u → ∀ n,
        ((s.line n).probeDue = true →
          (t.line n).state = .probing ∧ (t.line n).cause = .noCause ∧ (t.line n).zf = none ∧ (t.line n).passCount = 0
            ∧ (t.line n).probeDue = false ∧ (t.line n).waiting = (s.line n).waiting)
        ∧ ((s.line n).probeDue = false →
          (t.line n).state = (s.line n).state ∧ (t.line n).probeDue = false ∧ (t.line n).zf = (s.line n).zf))

/-- The fault keys that a confirmed class of a line stands for (R50): none for NORMAL. -/
def classFaults (n : LineNo) (c : LineClass) : List FaultKey :=
  match c with
  | .normal => []
  | .opened => [.lineOpen n]
  | .short => [.lineShort n]
  | .low => [.lineLow n]
  | .high => [.lineHigh n]

/-- Raises sent one after another, each with its snapshot. -/
def raiseAll (sent : List (FaultKey × Option Snapshot)) (s : State) : State := sent.foldl (fun u x => raise x.1 x.2 u) s

/-- The raises and clears of a confirmed change of line `n` from `old` to `new`, with one snapshot (R50, R51): the raise of
OPEN, LOW and HIGH is held in SETTLING. -/
def classChange (n : LineNo) (old new : LineClass) (snap : Option Snapshot) (s : State) : State :=
  let u := (classFaults n old).foldl (fun u k => clear k snap u) s
  if s.mc.mode = .settling ∧ new ≠ .short then u else raiseAll ((classFaults n new).map fun k => (k, snap)) u

/-- BLIND of a line raised where its masked count reaches the limit and the mode does not hold it, cleared by a usable
reading after masked ones (R51, R53). -/
def blindAfter (n : LineNo) (overrange : Bool) (s : State) : State :=
  let masked := (s.line n).masked
  if overrange then
    if s.mc.sys.blindLimit ≤ min 255 (masked + 1) ∧ s.mc.mode ≠ .settling then raise (.blind n) none s else s
  else if 0 < masked then clear (.blind n) none s
  else s

/-- The raises held in SETTLING, in the order they are sent at the move to ACTIVE (R51, R67): the classes and BLIND line by
line, then the leaks. BLIND goes by the masked count and the limit as they stand then (a limit lowered since the line was
last masked: DEDUCED, log entry 35). -/
def State.heldFaults (s : State) : List (FaultKey × Option Snapshot) :=
  (allLines.flatMap fun n =>
    let l := s.line n
    if l.state = .disabled then []
    else
      (if l.confirmed = .short then [] else (classFaults n l.confirmed).map fun k => (k, some (.impedance l.zf l.deviation)))
        ++ if s.mc.sys.blindLimit ≤ l.masked then [(.blind n, none)] else [])
    ++ allLines.flatMap fun n =>
      let l := s.line n
      if l.state ≠ .disabled ∧ l.earth = .leak then
        [(.earthLeak n, l.lastLc.map fun lc => .earth lc (if lc.val = 0 then 9999 else min 9999 (200000 / lc.val)))]
      else []

/-- An entry of the verify or the confirm queue keeps its place or is granted, and is not removed (R34). -/
def State.keptInVerify (s : State) (x : Subject) : Bool :=
  match x with
  | .line n => (s.line n).state = .probing
  | .amp _ => true

/-- An entry of the confirm queue keeps its place or is granted, and is not removed (R34). -/
def State.keptInConfirm (s : State) (x : Subject) : Bool :=
  match x with
  | .line n => (s.line n).state = .connected
  | .amp k => (s.amp k).state ≠ .disabled

/-- The subject is no line whose selector is moving (R34). -/
def State.atRest (s : State) (x : Subject) : Bool :=
  match x with
  | .line n => (s.line n).relayLeft = none
  | .amp _ => true

/-- An entry of the verify queue can be granted (R34). -/
def State.grantsVerify (s : State) (x : Subject) : Bool := s.keptInVerify x && s.atRest x

/-- An entry of the confirm queue can be granted (R34). -/
def State.grantsConfirm (s : State) (x : Subject) : Bool := s.keptInConfirm x && s.atRest x

/-- The next sample of the learn job can be granted (R27). -/
def State.grantsLearn (s : State) : Bool :=
  s.chan.job.any fun j => decide (j.granted < 8) && (s.line j.line).relayLeft = none

/-- A slot is eligible when it is reached (R29). -/
def State.slotKept (s : State) (x : Target) : Bool :=
  match x with
  | .amp k => (s.amp k).state ≠ .disabled
  | .line n => (s.line n).state = .connected
  | .earth n => (s.line n).state ≠ .disabled && (s.line n).cfg.earthCheck

/-- A slot names no line whose selector is moving (R29). -/
def State.slotAtRest (s : State) (x : Target) : Bool :=
  match x with
  | .amp _ => true
  | .line n | .earth n => (s.line n).relayLeft = none

/-- The scan waits at the slot it stands at, or has no slots (R29, R31). -/
def State.scanWaits (s : State) : Bool :=
  s.chan.round.all fun r => r.slots.isEmpty || r.slots[r.pos]?.any fun x => s.slotKept x && !s.slotAtRest x

/-- The record of a measurement granted now (R21): the epoch or the stamp copied, and the duration of its kind. -/
def State.granted (s : State) (x : Target) (c : GrantClass) (slot : Option Nat) : Measurement :=
  match x with
  | .line n => ⟨x, c, some (s.line n).epoch, none, slot, false, 40⟩
  | .earth n => ⟨x, c, some (s.line n).epoch, none, slot, false, 60⟩
  | .amp k => ⟨x, c, none, some (s.amp k).stamp, slot, false, 20⟩

/-- A subject has been placed in the verify queue (R25, R37): it waits there, or the grant that followed has taken it. -/
def State.verifyFollows (s : State) (x : Subject) : Bool :=
  x ∈ s.chan.verify || s.chan.inFlight = some (s.granted x.target .verify none)

/-- A subject has been placed in the confirm queue (R26, R37): it waits there, or the grant that followed has taken it. -/
def State.confirmFollows (s : State) (x : Subject) : Bool :=
  x ∈ s.chan.confirm || s.chan.inFlight = some (s.granted x.target .confirm none)

/-- The slot list of the round with number `r` that starts now (R28): the amplifiers that are not DISABLED, then by line its
LINE slot and, in an earth round, its EARTH slot. -/
def State.slotsOf (s : State) (r : Word) : List Target :=
  (allAmps.filter fun k => (s.amp k).state ≠ .disabled).map .amp
    ++ allLines.flatMap fun n =>
      (if (s.line n).state = .connected then [.line n] else [])
        ++ if (s.line n).state ≠ .disabled ∧ (s.line n).cfg.earthCheck = true ∧ r.toNat % s.mc.sys.earthDivider = 0 then
            [.earth n]
          else []

/-- A move of the lines on `x` to `y` starts a relay operation (R7). -/
def State.moveStarts (s : State) (x y : AmpNo) : Bool :=
  allLines.any fun n => (s.line n).current = x && (s.line n).state = .connected && (s.line n).selector ≠ .bus y

/-- An entry of the changeover queue does not qualify for a grant (R91). -/
def State.passesOver (s : State) (e : CoEntry) : Bool :=
  (e.origin = .manual && s.emergency) || (e.kind = .cover && (s.chosenStandby e.duty).isNone)

/-- The raises of the load (R166), from the working configuration and the conditions that the load has found: STORE_FAULT by
record, for a line only where it will end LOADING enabled, then UNCALIBRATED by line. -/
def State.loadFaults (s : State) (rejected : RecordNo → Bool) : List (FaultKey × Option Snapshot) :=
  let ends (n : LineNo) : Bool := (s.line n).cfg.enabled && allAmps.any fun k => (s.amp k).cfg.role = .duty
  ((allRecords.filter fun r => rejected r && allLines.all fun n => subjectOf r ≠ .line n || ends n).map fun r =>
      (.storeFault (subjectOf r), none))
    ++ (allLines.filter fun n => ends n && (s.line n).cfg.zref.isNone).map fun n => (.uncalibrated n, none)

/-- What the judgement of record `k`, answered with `b`, leaves where `found` is its cause (R165, R166), from `s` to `t`:
the working configuration of its subject, its condition, and the next read; after the last record the raises of the load,
the amplifiers established (R72, R73), the lines established (R3) and the next mode (R149), the first three of an empty
changeover queue. -/
abbrev State.loadJudges (s : State) (k : RecordNo) (b : List Byte) (found : LoadCause) (t : State) : Prop :=
  t.recordStatus k = (if found = .noCause then ⟨.valid, .noCause⟩ else ⟨.defaulted, found⟩)
    ∧ (∀ j, j ≠ k → t.recordStatus j = s.recordStatus j) ∧ t.store.judged = k.val + 1
    ∧ ∀ u, u = (if found = .noCause then loadFields k b s else loadDefaults k s) →
      (k.val < 22 → t = { u with store := t.store } ∧ t.store.readLeft = 25)
        ∧ (k.val = 22 →
          t.mc = { u.mc with
            mode := if u.mc.sys.autostart then .settling else .standby
            settleCount := if u.mc.sys.autostart then 0 else u.mc.settleCount }
          ∧ (u.co.queue = [] →
            t.faults = (raiseAll (u.loadFaults fun r => (t.recordStatus r).condition = .defaulted) u).faults
            ∧ (∀ j, (u.amp j).state = .disabled → t.amp j =
              if (u.amp j).cfg.enabled then { u.amp j with
                state := if (u.amp j).cfg.role = .duty then .healthy else .free, stamp := (u.amp j).stamp + 1 }
              else u.amp j)
            ∧ ∀ n, (u.line n).state = .disabled → (u.line n).probeDue = false →
            (((u.amp (u.line n).cfg.home).cfg.role = .duty ∨ ∀ j, (u.amp j).cfg.role = .standby) →
              (t.line n).cfg.home = (u.line n).cfg.home)
            ∧ (∀ j, (u.amp (u.line n).cfg.home).cfg.role = .standby → (u.amp j).cfg.role = .duty →
              (∀ i, i < j → (u.amp i).cfg.role = .standby) → (t.line n).cfg.home = j)
            ∧ (t.line n).cfg = { (u.line n).cfg with
              home := (t.line n).cfg.home
              enabled := (u.line n).cfg.enabled && decide (∃ j, (u.amp j).cfg.role = .duty) }
            ∧ (t.line n).current = (t.line n).cfg.home
            ∧ (t.line n).state = (if (t.line n).cfg.enabled then .connected else .disabled)
            ∧ ((u.line n).selector = .home →
              (t.line n).selector = (if (t.line n).cfg.enabled then .bus (t.line n).cfg.home else .off)
              ∧ (t.line n).relayLeft = some 12 ∧ (t.line n).epoch = (u.line n).epoch + 1)))

/-! ### A safe state and a safe run -/

/-- All the invariants together. -/
def State.safe (s : State) : Bool :=
  s.tableOk && s.portsOk && s.queuesOk && s.configOk && s.recordsOk && s.selectorsOk && s.modeOk && s.changeoverOk
    && s.storeOk

/-- A run of `k` steps from `s` that ends in a next state ends in a safe one. -/
def safeRun (k : Nat) (s : State) : Bool :=
  match k with
  | 0 => s.safe
  | k + 1 =>
    match step s with
    | .next t => s.safe && safeRun k t
    | .fault _ | .refused _ => true

end Sys2Proof.Machine
end

