-- ==== Sys2Proof/Certificates/Slice0/Obligations.lean ====
section
/-! DEFINITION. What the provers are asked to show: one statement for each group of rules of the specification. -/

open Sys2Proof Sys2Proof.Machine

/-! ### The block as a machine -/

/-- One step takes the command at the front of the queue and runs it, whole, with the rest of the queue waiting (R182; the
one queue is the model's choice, log entry 1). -/
def Obligations.StepRunsTheFrontCommand : Prop :=
  ∀ (c : Instr) (rest : List Instr) (s : State), s.pending = c :: rest → step s = exec c { s with pending := rest }

/-- With no command waiting a step is one millisecond (the model's choice, log entries 1 and 8): every time that runs
goes down by one and never below 1, nothing else changes, and during a reset in force nothing does. -/
def Obligations.AnEmptyQueuePassesOneMillisecond : Prop :=
  ∀ s : State, s.pending = [] → ∃ t, step s = .next t ∧
    (s.mc.resetInForce.isSome → t = s) ∧
    (s.mc.resetInForce = none →
      (∀ n, t.line n = { s.line n with
          relayLeft := (s.line n).relayLeft.map fun ms => max 1 (ms - 1), timer := (t.line n).timer } ∧
        (∀ ms, (s.line n).timer = .running ms → (t.line n).timer = .running (max 1 (ms - 1))) ∧
        (∀ ms, (s.line n).timer = .frozen ms → (t.line n).timer = .frozen ms) ∧
        ((s.line n).timer = .idle → (t.line n).timer = .idle)) ∧
      t = { s with
        lines := t.lines
        chan := { s.chan with
          inFlight := s.chan.inFlight.map fun m => { m with left := max 1 (m.left - 1) }
          round := s.chan.round.map fun r => { r with left := max 1 (r.left - 1) } }
        store := { s.store with
          readLeft := max 1 (s.store.readLeft - 1)
          write := s.store.write.map fun w => { w with left := max 1 (w.left - 1) } } })

/-- No command faults or is refused, and none touches the queue of waiting commands. While a reset is in force no frame
is taken and no event reaches a block; only the reset commands act (R160, R172; DEDUCED for the events, log entry
7). -/
def Obligations.EveryCommandCompletesAndOnlyResetsActDuringAReset : Prop :=
  (∀ (c : Instr) (s : State), ∃ t, exec c s = .next t ∧ t.pending = s.pending) ∧
  ∀ (c : Instr) (s : State), s.mc.resetInForce.isSome → c ≠ .powerOn → c ≠ .brownOut → c ≠ .resetPin →
    c ≠ .resetEnd false false → c ≠ .resetEnd false true → c ≠ .resetEnd true false → c ≠ .resetEnd true true →
    exec c s = .next s

/-! ### Port protocol and requests (11) -/

/-- The checks of the port interface, in their order: the length, the port, the mode, the limit; a refused request
changes nothing but the reply that its port is sent (R173, R174). A frame whose length byte is above 32 is answered
BAD_FRAME, one whose code is that of no request of the table UNKNOWN_REQUEST, and a frame cut short is discarded;
nothing else changes (R172, R173). -/
def Obligations.PortInterfaceRefusesInItsOrder : Prop :=
  (∀ (q : Request) (p : Port) (tag : Byte) (payload : List Byte) (s : State), s.mc.resetInForce = none →
    (32 < payload.length ∨ payload.length ≠ q.payloadLen →
      exec (requestFrame q p tag payload) s = .next (s.answer p ⟨.badFrame, []⟩)) ∧
    (payload.length = q.payloadLen →
      (p = .m ∧ q.openToM = false → exec (requestFrame q p tag payload) s = .next (s.answer p ⟨.notPermitted, []⟩)) ∧
      ((p = .m → q.openToM = true) →
        (s.mc.mode = .loading ∧ q.inLoading = false →
          exec (requestFrame q p tag payload) s = .next (s.answer p ⟨.notRunning, []⟩)) ∧
        ((s.mc.mode = .loading → q.inLoading = true) → q.long = true → 4 ≤ (s.port p).outstanding →
          exec (requestFrame q p tag payload) s = .next (s.answer p ⟨.busy, []⟩))))) ∧
  (∀ (p : Port) (code tag len : Byte) (s : State), s.mc.resetInForce = none →
    (32 < len.toNat → exec (.unknownRequest p code tag len) s = .next (s.answer p ⟨.badFrame, []⟩)) ∧
    (len.toNat ≤ 32 → (∀ q ∈ allRequests, q.code ≠ code) →
      exec (.unknownRequest p code tag len) s = .next (s.answer p ⟨.unknownRequest, []⟩))) ∧
  ∀ (p : Port) (received : List Byte) (s : State), exec (.frameAborted p received) s = .next s

/-- IDENTIFY replies with the part identifier, the revision, the numbers of lines and amplifiers and the port, in any
mode, and changes nothing else (R177). -/
def Obligations.IdentifyNamesThePartAndThePort : Prop :=
  ∀ (p : Port) (tag : Byte) (s : State), s.mc.resetInForce = none →
    exec (.identify p tag []) s = .next (s.answer p ⟨.ok, [0x16#8, 0x06#8] ++ Config.revision ++ [16#8, 6#8] ++
      [if p = .a then 0#8 else if p = .b then 1#8 else 2#8]⟩)

/-- The reading requests change nothing but the reply of their port: STATUS, READ_LINE, READ_AMP and READ_QUEUE answer OK,
a number that names no subject BAD_SUBJECT, and the records of one line and of one amplifier have one length each (R85,
R176, R178, R179; the coding of the replies is DEDUCED, log entry 12). STATUS ends with the earth divider, which R69 says is
reported (its place: DEDUCED, log entry 29). -/
def Obligations.ReadingRequestsChangeNothing : Prop :=
  ∀ (p : Port) (tag : Byte) (s : State), s.mc.resetInForce = none →
    (∃ t, exec (.status p tag []) s = .next t ∧ t = s.answer p (statusReply p s) ∧
      (statusReply p s).payload.length = 70 ∧
      (statusReply p s).payload.getLast? = some (BitVec.ofNat 8 s.mc.sys.earthDivider) ∧
      (statusReply p s).payload.take 9 = [BitVec.ofNat 8 s.mc.mode.pos, BitVec.ofNat 8 s.mc.settleCount,
        BitVec.ofNat 8 s.mc.sys.settleRounds, if s.mc.emergInput then 0#8 else 1#8, if s.mc.flagA then 0#8 else 1#8,
        if s.mc.flagB then 0#8 else 1#8, if s.emergency then 1#8 else 0#8, if s.mc.supply = .low then 1#8 else 0#8,
        BitVec.ofNat 8 s.mc.cause.pos]) ∧
    (s.mc.mode ≠ .loading →
      (∀ n : LineNo, ∃ t, exec (.readLine p tag (linePayload n)) s = .next t ∧ t = s.answer p (lineReply (s.line n)) ∧
        (lineReply (s.line n)).code = .ok ∧ (lineReply (s.line n)).payload.length = 62) ∧
      (∀ k : AmpNo, ∃ t, exec (.readAmp p tag (ampPayload k)) s = .next t ∧ t = s.answer p (ampReply (s.amp k)) ∧
        (ampReply (s.amp k)).code = .ok ∧ (ampReply (s.amp k)).payload.length = 23) ∧
      (∃ t, exec (.readQueue p tag []) s = .next t ∧
        t = s.answer p ⟨.ok, channelReport s.chan ++ changeoverReport s⟩) ∧
      ∀ x : Byte,
        (16 ≤ x.toNat → exec (.readLine p tag [x]) s = .next (s.answer p ⟨.badSubject, []⟩)) ∧
        (6 ≤ x.toNat → exec (.readAmp p tag [x]) s = .next (s.answer p ⟨.badSubject, []⟩)))

/-- What READ_LINE sends decides the line record as R178 reports it: two records within their ranges that are answered
alike agree in every configuration, runtime and earth field but the time left of a relay operation and the learn
accumulator, which the reply leaves out. -/
def Obligations.ReadLineLosesNoReportedField : Prop :=
  ∀ (l m : Line), (∀ x : Line, x = l ∨ x = m → lineConfigOk x.cfg = true ∧ x.rawZ.all (· ≤ 65535) = true ∧
      x.zf.all (· ≤ 65535) = true ∧ x.deviation.all (fun d => -32768 ≤ d && d ≤ 9999) = true ∧ x.count ≤ 255 ∧
      x.masked ≤ 255 ∧ x.retryCount ≤ 255 ∧ x.timer.ms < 2 ^ 24 ∧ x.passCount ≤ 255 ∧ x.earthCount ≤ 255) →
    lineReply l = lineReply m →
      m = { l with relayLeft := m.relayLeft, learn := m.learn, waiting := m.waiting, timer := m.timer } ∧
        m.moving = l.moving ∧ m.timer.pos = l.timer.pos ∧ m.timer.ms = l.timer.ms ∧
        m.waiting.map (fun r => (r.port, r.tag)) = l.waiting.map (fun r => (r.port, r.tag))

/-- READ_RECORD of a key: the record with its three marks where the table holds one, the place in the deferred list
where the key waits there, BAD_SUBJECT otherwise and for bytes that spell no key; nothing else changes (R126; the
bytes of the reply are DEDUCED, log entry 12). LIST_RECORDS gives a page of at most six summaries from the start
index, in list order, under a header; a start at or beyond the end gives the header alone with NONE (DEDUCED, log
entry 14), and one above 47 is refused; nothing else changes (R127; the bytes of the reply are DEDUCED, log entry
12). -/
def Obligations.RecordsAreReadByKeyAndInPagesOfSix : Prop :=
  (∀ (p : Port) (tag : Byte) (payload : List Byte) (k : FaultKey) (s : State), s.takes .readRecord p payload →
    ((∀ j : FaultKey, payload ≠ encKey j) →
      exec (.readRecord p tag payload) s = .next (s.answer p ⟨.badSubject, []⟩)) ∧
    (payload = encKey k →
      (∀ r, s.faults.records.find? (fun r => r.key = k) = some r →
        exec (.readRecord p tag payload) s = .next (s.answer p ⟨.ok, encRecord r ++
          [if r.marks.a then 1#8 else 0#8, if r.marks.b then 1#8 else 0#8, if r.marks.m then 1#8 else 0#8]⟩)) ∧
      ((∀ r ∈ s.faults.records, r.key ≠ k) →
        ((∀ d ∈ s.faults.deferred, d.key ≠ k) →
          exec (.readRecord p tag payload) s = .next (s.answer p ⟨.badSubject, []⟩)) ∧
        ∀ i, i < s.faults.deferred.length → (s.faults.deferred.map (·.key))[i]? = some k →
          (∀ j, j < i → (s.faults.deferred.map (·.key))[j]? ≠ some k) →
          exec (.readRecord p tag payload) s = .next (s.answer p
            ⟨.nothing, [BitVec.ofNat 8 i, BitVec.ofNat 8 s.faults.deferred.length]⟩)))) ∧
  ∀ (p : Port) (tag : Byte) (i : Byte) (s : State), s.takes .listRecords p [i] →
    ∃ t, exec (.listRecords p tag [i]) s = .next t ∧
      t = s.setPort p { s.port p with reply := (t.port p).reply } ∧
      (47 < i.toNat → (t.port p).reply = some ⟨.badSubject, []⟩) ∧
      (i.toNat ≤ 47 → s.faults.records.length ≤ i.toNat → (t.port p).reply = some ⟨.nothing,
        [BitVec.ofNat 8 s.faults.records.length, s.faults.counter.extractLsb' 8 8, s.faults.counter.extractLsb' 0 8,
          if s.faults.full then 1#8 else 0#8, BitVec.ofNat 8 s.faults.deferred.length]⟩) ∧
      (i.toNat ≤ 47 → i.toNat < s.faults.records.length → (t.port p).reply = some ⟨.ok,
        [BitVec.ofNat 8 s.faults.records.length, s.faults.counter.extractLsb' 8 8, s.faults.counter.extractLsb' 0 8,
          if s.faults.full then 1#8 else 0#8, BitVec.ofNat 8 s.faults.deferred.length,
          BitVec.ofNat 8 (min 6 (s.faults.records.length - i.toNat))] ++
        ((s.faults.records.drop i.toNat).take 6).flatMap fun r => encKey r.key ++ [BitVec.ofNat 8 r.lifecycle.pos,
          BitVec.ofNat 8 r.occurrences, r.stamp.extractLsb' 8 8, r.stamp.extractLsb' 0 8,
          if r.marks.get p then 1#8 else 0#8]⟩)

/-! ### Notification and completions (08) -/

/-- LISTEN: the issuing port listens, every record of the table becomes NEW for it in place, without a transition, and
its latch is set if a class is then eligible; a port that listens already gets NO_CHANGE (R130). LEAVE: the port
stops listening, no record stays NEW for it, its in-service set and its latch empty, and its mask, level, auto-done
flag and completions stand; CLOSED records then NEW for no port leave the table, and where no key is deferred
nothing else changes (R131). -/
def Obligations.ListenAndLeaveBeginAndEndAPortsMarks : Prop :=
  (∀ (p : Port) (tag : Byte) (s : State), s.takes .listen p [] →
    ((s.port p).listening = true → exec (.listen p tag []) s = .next (s.answer p ⟨.noChange, []⟩)) ∧
    ((s.port p).listening = false → ∃ t, exec (.listen p tag []) s = .next t ∧
      t.faults = { s.faults with records := s.faults.records.map fun r => { r with marks := r.marks.set p true } } ∧
      t.port p = { s.port p with
        listening := true
        latch := (s.port p).latch || t.anyEligible p
        reply := some ⟨.ok, [BitVec.ofNat 8 s.faults.records.length]⟩ } ∧
      t = { s with faults := t.faults, ports := s.ports.set p (t.port p) })) ∧
  ∀ (p : Port) (tag : Byte) (s : State), s.takes .leave p [] →
    ((s.port p).listening = false → exec (.leave p tag []) s = .next (s.answer p ⟨.noChange, []⟩)) ∧
    ((s.port p).listening = true → ∃ t, exec (.leave p tag []) s = .next t ∧
      t.port p = { s.port p with
        listening := false, inService := noClasses, latch := false, reply := some ⟨.ok, []⟩ } ∧
      (∀ r ∈ t.faults.records, r.marks.get p = false) ∧
      t = { s with faults := t.faults, ports := t.ports } ∧
      (∀ q, t.port q = { s.port q with
        listening := (t.port q).listening, inService := (t.port q).inService, latch := (t.port q).latch,
        reply := (t.port q).reply }) ∧
      (s.tableOk = true → s.faults.deferred = [] →
        t.faults = { s.faults with
          records := (s.faults.records.map fun r => { r with marks := r.marks.set p false }).filter fun r =>
            !(r.lifecycle = .closed && !r.marks.a && !r.marks.b && !r.marks.m) } ∧
        ∀ q, q ≠ p → t.port q = s.port q))

/-- SET_NOTIFY writes the mask (bit c of the first byte masks class c), the level, clamped to 8, and the auto-done flag of
the issuing port, and its latch then stands set just when a class is eligible; nothing else changes (R132). -/
def Obligations.SetNotifyWritesAndReflectsTheSettings : Prop :=
  ∀ (p : Port) (tag m u a : Byte) (s : State), s.takes .setNotify p [m, u, a] →
    ∃ t, exec (.setNotify p tag [m, u, a]) s = .next t ∧
      (∀ c : ClassNo, (t.port p).mask.has c = m.toNat.testBit c.val) ∧
      t.port p = { s.port p with
        mask := (t.port p).mask
        urgent := min 8 u.toNat
        autoDone := a != 0
        latch := t.anyEligible p
        reply := some ⟨if 8 < u.toNat then .clamped else .ok, []⟩ } ∧
      t = { s with ports := s.ports.set p (t.port p) }

/-- Eligible classes (R133): the lowest eligible class of a port is the lowest one that has a record NEW for it, is
unmasked and lies below every class in service. A FETCH that finds no eligible class replies NONE with the NEW count
and the blocked count, clears the latch and changes nothing else; the blocked records are those NEW for the port
whose class is unmasked and at or above the lowest class in service (R133, R135). -/
def Obligations.LowestEligibleClassAndAFetchThatFindsNone : Prop :=
  (∀ (p : Port) (c : ClassNo) (s : State), s.lowestEligible p = some c ↔
    ((∃ r ∈ s.faults.records, r.marks.get p = true ∧ r.key.cls = c) ∧ (s.port p).mask.has c = false ∧
        ∀ d : ClassNo, (s.port p).inService.has d = true → c < d) ∧
      ∀ b : ClassNo, b < c → ¬((∃ r ∈ s.faults.records, r.marks.get p = true ∧ r.key.cls = b) ∧
        (s.port p).mask.has b = false ∧ ∀ d : ClassNo, (s.port p).inService.has d = true → b < d)) ∧
  ∀ (p : Port) (tag : Byte) (s : State), s.takes .fetch p [] → s.lowestEligible p = none →
    exec (.fetch p tag []) s = .next (s.setPort p { s.port p with
      latch := false
      reply := some ⟨.nothing, [BitVec.ofNat 8 (s.faults.records.countP fun r => r.marks.get p),
        BitVec.ofNat 8 (s.faults.records.countP fun r => r.marks.get p && !(s.port p).mask.has r.key.cls &&
          decide (∃ d : ClassNo, (s.port p).inService.has d = true ∧ d ≤ r.key.cls))]⟩ })

/-- FETCH of an eligible class gives the first record of the lowest eligible class that is NEW for the port, drops the
port's mark on it and takes the class into service unless auto-done is on; a CLOSED record then NEW for no port leaves the
table; the latch clears when nothing is eligible any longer (R134). -/
def Obligations.FetchGivesTheOldestRecordOfTheLowestClass : Prop :=
  ∀ (p : Port) (tag : Byte) (c : ClassNo) (s : State), s.takes .fetch p [] → s.tableOk = true →
    s.lowestEligible p = some c →
    ∀ r, s.faults.records.find? (fun r => r.marks.get p && r.key.cls = c) = some r →
      ∃ t, exec (.fetch p tag []) s = .next t ∧
        (t.port p).inService = (if (s.port p).autoDone then (s.port p).inService else (s.port p).inService.put c true) ∧
        (t.port p).reply = some ⟨.ok, encRecord r ++ [BitVec.ofNat 8 c.val, if (s.port p).autoDone then 0#8 else 1#8] ++
          encClasses (t.port p).inService ++ [BitVec.ofNat 8 (t.newCount p)]⟩ ∧
        (t.anyEligible p = false → (t.port p).latch = false) ∧
        t = { s with faults := t.faults, ports := t.ports } ∧
        (∀ q, t.port q = { s.port q with
          inService := if q = p then (t.port p).inService else (s.port q).inService
          latch := (t.port q).latch
          reply := if q = p then (t.port p).reply else (s.port q).reply }) ∧
        (s.faults.deferred = [] →
          (∀ q, q ≠ p → t.port q = s.port q) ∧ (t.port p).latch = ((s.port p).latch && t.anyEligible p) ∧
          t.faults = { s.faults with
            records := (s.faults.records.map fun x =>
                if x.key = r.key then { x with marks := x.marks.set p false } else x).filter fun x =>
              !(x.key = r.key && x.lifecycle = .closed && !x.marks.a && !x.marks.b && !x.marks.m) })

/-- PEEK changes nothing but the reply: it names the class and the key that a FETCH would give, or answers NONE, and sends
the port's notification state, with NONE that state alone (R136; the bytes of the reply, and a NONE without class and key,
are DEDUCED, log entry 12). -/
def Obligations.PeekNamesWhatAFetchWouldGive : Prop :=
  ∀ (p : Port) (tag : Byte) (s : State), s.takes .peek p [] →
    ∃ t, exec (.peek p tag []) s = .next t ∧ t = s.setPort p { s.port p with reply := (t.port p).reply } ∧
      ∀ rest, rest = [if (s.port p).listening then 1#8 else 0#8] ++ encClasses (s.port p).mask ++
          [BitVec.ofNat 8 (s.port p).urgent, if (s.port p).autoDone then 1#8 else 0#8] ++
          encClasses (s.port p).inService ++
          [if (s.port p).latch then 1#8 else 0#8, BitVec.ofNat 8 (s.newCount p), BitVec.ofNat 8 (s.blockedCount p)] ++
          ([0, 1, 2, 3, 4, 5, 6, 7] : List ClassNo).map (fun c => BitVec.ofNat 8
            (s.faults.records.countP fun r => r.marks.get p && r.key.cls = c)) ++
          [BitVec.ofNat 8 (s.port p).completions.length, BitVec.ofNat 8 (s.port p).inFlight] →
        (s.lowestEligible p = none → (t.port p).reply = some ⟨.nothing, rest⟩) ∧
        ∀ c, s.lowestEligible p = some c →
          ∀ r, s.faults.records.find? (fun r => r.marks.get p && r.key.cls = c) = some r →
            (t.port p).reply = some ⟨.ok, [BitVec.ofNat 8 c.val] ++ encKey r.key ++ rest⟩

/-- DONE takes the lowest class out of the in-service set of the issuing port and sets its latch if a class is then
eligible; on an empty set it is NO_CHANGE; no record and no other port is touched (R137). DONE_CLASS takes the class
it names out of the in-service set, wherever it stands in it, and sets the latch if a class is then eligible; a
class that is not in the set is NO_CHANGE, a number above 7 BAD_SUBJECT (R138). -/
def Obligations.DoneAndDoneClassFinishAClassInService : Prop :=
  (∀ (p : Port) (tag : Byte) (s : State), s.takes .done p [] →
    ((∀ c : ClassNo, (s.port p).inService.has c = false) →
      exec (.done p tag []) s = .next (s.answer p ⟨.noChange, []⟩)) ∧
    ∀ c : ClassNo, (s.port p).inService.has c = true → (∀ d : ClassNo, d < c → (s.port p).inService.has d = false) →
      ∃ t, exec (.done p tag []) s = .next t ∧
        (∀ d : ClassNo, (t.port p).inService.has d = ((s.port p).inService.has d && d ≠ c)) ∧
        t.port p = { s.port p with
          inService := (t.port p).inService
          latch := (s.port p).latch || t.anyEligible p
          reply := some ⟨.ok, [BitVec.ofNat 8 c.val] ++ encClasses (t.port p).inService⟩ } ∧
        t = { s with ports := s.ports.set p (t.port p) }) ∧
  ∀ (p : Port) (tag x : Byte) (s : State), s.takes .doneClass p [x] →
    (7 < x.toNat → exec (.doneClass p tag [x]) s = .next (s.answer p ⟨.badSubject, []⟩)) ∧
    ∀ c : ClassNo, c.val = x.toNat →
      ((s.port p).inService.has c = false →
        exec (.doneClass p tag [x]) s = .next (s.answer p ⟨.noChange, []⟩)) ∧
      ((s.port p).inService.has c = true →
        ∃ t, exec (.doneClass p tag [x]) s = .next t ∧
          (∀ d : ClassNo, (t.port p).inService.has d = ((s.port p).inService.has d && d ≠ c)) ∧
          t.port p = { s.port p with
            inService := (t.port p).inService
            latch := (s.port p).latch || t.anyEligible p
            reply := some ⟨.ok, encClasses (t.port p).inService⟩ } ∧
          t = { s with ports := s.ports.set p (t.port p) })

/-- READ_COMPLETION takes the oldest record of the issuing port's completion list and replies with its tag, request,
outcome and the number of records left; the outstanding count falls by one, and the line is released when the list is then
empty and the latch clear; on an empty list, which Port M's always is, the reply is NONE with the in-flight count; the latch
and the fault table are not touched (R144). -/
def Obligations.ReadCompletionTakesTheOldestRecord : Prop :=
  ∀ (p : Port) (tag : Byte) (s : State), s.takes .readCompletion p [] →
    ((s.port p).completions = [] → exec (.readCompletion p tag []) s =
      .next (s.answer p ⟨.nothing, [BitVec.ofNat 8 (s.port p).inFlight]⟩)) ∧
    (p = .m → s.portsOk = true → (s.port p).completions = []) ∧
    ∀ c cs, (s.port p).completions = c :: cs → ∃ t, exec (.readCompletion p tag []) s = .next t ∧
      t = s.setPort p { s.port p with
        completions := cs
        reply := some ⟨.ok, [c.tag, c.request.code, BitVec.ofNat 8 c.outcome.code, BitVec.ofNat 8 cs.length]⟩ } ∧
      (t.port p).outstanding + 1 = (s.port p).outstanding ∧
      (cs = [] → (s.port p).latch = false → t.attention p = false)

/-- RESET_PORT completes: it returns the issuing port's notification and completion state to its defaults with the next
session number, drops its marks and, for Port A or B, clears its emergency flag; the reply carries the new session and whether emergency is
in force. Unless that ends emergency, no other block is touched but by removals and releases (R145, R181). It is
said of a table in which only listening ports have marks (R121), which every step keeps. -/
def Obligations.ResetPortReturnsThePortToItsDefaults : Prop :=
  ∀ (p : Port) (tag : Byte) (s : State), s.takes .resetPort p [] → s.tableOk = true →
    ∃ t, exec (.resetPort p tag []) s = .next t ∧
      t.port p = { resetPortState with
        session := (s.port p).session + 1
        reply := some ⟨.ok, [((s.port p).session + 1).extractLsb' 8 8, ((s.port p).session + 1).extractLsb' 0 8,
          if t.emergency then 1#8 else 0#8]⟩ } ∧
      (∀ r ∈ t.faults.records, r.marks.get p = false) ∧
      t.mc.flagA = (s.mc.flagA && p ≠ .a) ∧ t.mc.flagB = (s.mc.flagB && p ≠ .b) ∧
      t.mc.emergInput = s.mc.emergInput ∧ t.store = s.store ∧
      (¬(s.emergency = true ∧ t.emergency = false) →
        t = { s with faults := t.faults, ports := t.ports, mc := { s.mc with flagA := t.mc.flagA, flagB := t.mc.flagB } } ∧
        (∀ q, q ≠ p → t.port q = { s.port q with latch := (t.port q).latch }) ∧
        (s.faults.deferred = [] → ∀ q, q ≠ p → t.port q = s.port q))

/-! ### The fault table (07) -/

/-- The notice of a transition (R139): a port that the table marked has its latch set just when the class is eligible for
it and, in SETTLING and ACTIVE, lies below its urgent level; in LOADING none has; nothing else changes. -/
def Obligations.NoticeSetsTheLatchOfThePortsItConcerns : Prop :=
  ∀ (c : ClassNo) (marked : PerPort Bool) (s : State),
    notice c marked s = { s with ports := (notice c marked s).ports } ∧
    ∀ p, (notice c marked s).port p = { s.port p with latch := (s.port p).latch ||
      (marked.get p && s.eligible p c && s.mc.mode ≠ .loading &&
        (s.mc.mode = .standby || s.mc.mode = .stopping || decide (c.val < (s.port p).urgent))) }

/-- A raise (R113, R114, R115): an active record stands; a cleared or closed one becomes ACTIVE_UNACK again with one
occurrence more, at the tail; with no record, one is created while the table holds fewer than 48, and the key is deferred
when it holds 48. Each transition takes the next counter value, marks every listening port and is noticed. -/
def Obligations.RaiseActsByTheStandOfTheKey : Prop :=
  ∀ (k : FaultKey) (snap : Option Snapshot) (s : State),
    (∀ r, s.faults.records.find? (fun r => r.key = k) = some r →
      (r.lifecycle = .activeUnack ∨ r.lifecycle = .activeAck → raise k snap s = s) ∧
      (r.lifecycle = .clearedUnack ∨ r.lifecycle = .closed → raise k snap s = notice k.cls s.listeners
        { s with faults := { s.faults with
            counter := s.faults.counter + 1
            records := s.faults.records.filter (fun x => x.key ≠ k) ++ [{ r with
              lifecycle := .activeUnack, occurrences := min 255 (r.occurrences + 1), ackPort := none, snapshot := snap
              stamp := s.faults.counter + 1
              marks := ⟨r.marks.a || s.ports.a.listening, r.marks.b || s.ports.b.listening,
                r.marks.m || s.ports.m.listening⟩ }] } })) ∧
    ((∀ r ∈ s.faults.records, r.key ≠ k) →
      (s.faults.records.length < 48 → raise k snap s = notice k.cls s.listeners
        { s with faults := { s.faults with
            counter := s.faults.counter + 1
            records := s.faults.records ++ [{
              key := k, lifecycle := .activeUnack, occurrences := 1, firstRound := s.chan.roundNumber
              stamp := s.faults.counter + 1, ackPort := none, snapshot := snap
              marks := ⟨s.ports.a.listening, s.ports.b.listening, s.ports.m.listening⟩ }] } }) ∧
      (48 ≤ s.faults.records.length →
        ((∀ d ∈ s.faults.deferred, d.key ≠ k) → raise k snap s = { s with faults := { s.faults with
          deferred := s.faults.deferred ++ [⟨k, snap, s.chan.roundNumber⟩], full := true } }) ∧
        ((∃ d ∈ s.faults.deferred, d.key = k) → raise k snap s = { s with faults := { s.faults with
          deferred := s.faults.deferred.map fun d => if d.key = k then { d with snapshot := snap } else d
          full := true } })))

/-- A clear (R117): ACTIVE_UNACK becomes CLEARED_UNACK and ACTIVE_ACK becomes CLOSED, at the tail with the next counter
value, the snapshot carried and a mark for each listening port; a CLOSED record is then checked for removal; a deferred key
leaves the list, and the flag clears with its last key; anything else stands. -/
def Obligations.ClearActsByTheStandOfTheKey : Prop :=
  ∀ (k : FaultKey) (snap : Option Snapshot) (s : State),
    (∀ r, s.faults.records.find? (fun r => r.key = k) = some r →
      (r.lifecycle = .clearedUnack ∨ r.lifecycle = .closed → clear k snap s = s) ∧
      (∀ l, (r.lifecycle = .activeUnack ∧ l = .clearedUnack) ∨ (r.lifecycle = .activeAck ∧ l = .closed) →
        ∀ u, u = notice k.cls s.listeners { s with faults := { s.faults with
          counter := s.faults.counter + 1
          records := s.faults.records.filter (fun x => x.key ≠ k) ++ [{ r with
            lifecycle := l, snapshot := snap, stamp := s.faults.counter + 1
            marks := ⟨r.marks.a || s.ports.a.listening, r.marks.b || s.ports.b.listening,
              r.marks.m || s.ports.m.listening⟩ }] } } →
        clear k snap s = if l = .closed then checkRemoval k u else u)) ∧
    ((∀ r ∈ s.faults.records, r.key ≠ k) →
      ((∀ d ∈ s.faults.deferred, d.key ≠ k) → clear k snap s = s) ∧
      ((∃ d ∈ s.faults.deferred, d.key = k) → clear k snap s = { s with faults := { s.faults with
        deferred := s.faults.deferred.filter fun d => d.key ≠ k
        full := s.faults.full && s.faults.deferred.any fun d => d.key ≠ k } }))

/-- The removal check of a key (R122, R123): only a CLOSED record that is NEW for no port leaves the table, and then the
deferred key of the lowest class, and of that class the oldest, comes in at the tail as a raise creates it, with the first
round of its deferral; the release is said of a table of 48 records in which no key stands twice. -/
def Obligations.RemovalReleasesTheFirstDeferredKeyOfTheLowestClass : Prop :=
  ∀ (k : FaultKey) (r : FaultRecord) (s : State), s.faults.records.find? (fun r => r.key = k) = some r →
    (r.lifecycle ≠ .closed ∨ r.marks.a = true ∨ r.marks.b = true ∨ r.marks.m = true → checkRemoval k s = s) ∧
    (r.lifecycle = .closed → r.marks.a = false → r.marks.b = false → r.marks.m = false →
      (s.faults.deferred = [] → checkRemoval k s =
        { s with faults := { s.faults with records := s.faults.records.filter fun x => x.key ≠ k } }) ∧
      ∀ (older newer : List Deferred) (d : Deferred), s.faults.deferred = older ++ d :: newer →
        (∀ e ∈ older, d.key.cls < e.key.cls) → (∀ e ∈ newer, d.key.cls ≤ e.key.cls) → s.faults.records.length = 48 →
        (s.faults.records.map (·.key) ++ s.faults.deferred.map (·.key)).Nodup →
        checkRemoval k s = notice d.key.cls s.listeners { s with faults := {
          counter := s.faults.counter + 1
          deferred := older ++ newer
          full := s.faults.full && !(older ++ newer).isEmpty
          records := s.faults.records.filter (fun x => x.key ≠ k) ++ [{
            key := d.key, lifecycle := .activeUnack, occurrences := 1, firstRound := d.firstRound
            stamp := s.faults.counter + 1, ackPort := none, snapshot := d.snapshot
            marks := ⟨s.ports.a.listening, s.ports.b.listening, s.ports.m.listening⟩ }] } })

/-- ACK of a key (R118): an unacknowledged record moves to ACTIVE_ACK, or from CLEARED_UNACK to CLOSED, at the tail with
the next counter value, acknowledged by the issuing port, NEW for the other listening ports and no longer for it,
with its snapshot kept; it is then checked for removal. An acknowledged record is NO_CHANGE; a key with no record,
and bytes that spell no key, are BAD_SUBJECT. ACK_ALL (R120): the reply counts the records that were unacknowledged;
each takes a counter value of its own where no key is deferred; afterwards only records that the removals released
are unacknowledged; the records that were acknowledged before keep their places before the others, which follow in
their former order, less those that have left as CLOSED. -/
def Obligations.AcksMoveUnacknowledgedRecordsOn : Prop :=
  (∀ (p : Port) (tag : Byte) (k : FaultKey) (payload : List Byte) (s : State), s.takes .ack p payload →
    ((∀ j : FaultKey, payload ≠ encKey j) → exec (.ack p tag payload) s = .next (s.answer p ⟨.badSubject, []⟩)) ∧
    ((∀ r ∈ s.faults.records, r.key ≠ k) →
      exec (.ack p tag (encKey k)) s = .next (s.answer p ⟨.badSubject, []⟩)) ∧
    ∀ r, s.faults.records.find? (fun r => r.key = k) = some r →
      (r.lifecycle = .activeAck ∨ r.lifecycle = .closed →
        exec (.ack p tag (encKey k)) s = .next (s.answer p ⟨.noChange, []⟩)) ∧
      ∀ l, (r.lifecycle = .activeUnack ∧ l = .activeAck) ∨ (r.lifecycle = .clearedUnack ∧ l = .closed) →
        ∀ others, others = s.listeners.set p false → ∀ u, u = notice k.cls others { s with faults := { s.faults with
          counter := s.faults.counter + 1
          records := s.faults.records.filter (fun x => x.key ≠ k) ++ [{ r with
            lifecycle := l, ackPort := some p, stamp := s.faults.counter + 1
            marks := (⟨r.marks.a || others.a, r.marks.b || others.b, r.marks.m || others.m⟩ : PerPort Bool).set p
              false }] } } →
        exec (.ack p tag (encKey k)) s = .next ((if l = .closed then checkRemoval k u else u).answer p ⟨.ok, []⟩)) ∧
  ∀ (p : Port) (tag : Byte) (s : State), s.takes .ackAll p [] → s.tableOk = true →
    ∃ t, exec (.ackAll p tag []) s = .next t ∧
      (t.port p).reply = some ⟨.ok, [BitVec.ofNat 8 (s.faults.records.countP (·.unacknowledged))]⟩ ∧
      t = { s with faults := t.faults, ports := t.ports } ∧
      (∀ r ∈ t.faults.records, r.unacknowledged = true → ∃ d ∈ s.faults.deferred, d.key = r.key) ∧
      (s.faults.deferred = [] →
        t.faults.counter = s.faults.counter + BitVec.ofNat 16 (s.faults.records.countP (·.unacknowledged)) ∧
        t.faults.records.map (·.key) =
          (s.faults.records.filter fun r => !r.unacknowledged).map (·.key) ++
          (s.faults.records.filter fun r => r.unacknowledged && !(r.lifecycle = .clearedUnack &&
            ([Port.a, .b, .m].all fun q => q = p || (!r.marks.get q && !(s.port q).listening)))).map (·.key))

/-! ### Speaker lines (01, 03) -/

/-- The requests on one line refuse a number above 15 with BAD_SUBJECT and change nothing else (1.6, R55); DISABLE_LINE
in emergency too, where no rule gives the order of that refusal and EMERGENCY (DEDUCED, log entry 37). The requests
on one amplifier refuse a number above 5 with BAD_SUBJECT and change nothing else (R70, R83, R84, R102, R103). -/
def Obligations.RequestsRefuseANumberThatNamesNoLineOrAmplifier : Prop :=
  (∀ (q : Request) (p : Port) (tag : Byte) (payload : List Byte) (s : State), s.takes q p payload →
    q ∈ [Request.isolate, .restore, .enableLine, .disableLine, .configureLine, .learn] → 16 ≤ byteAt payload 0 →
    exec (requestFrame q p tag payload) s = .next (s.answer p ⟨.badSubject, []⟩)) ∧
  ∀ (q : Request) (p : Port) (tag : Byte) (payload : List Byte) (s : State), s.takes q p payload →
    q ∈ [Request.cover, .returnLines, .enableAmp, .disableAmp, .configureAmp] → 6 ≤ byteAt payload 0 →
    exec (requestFrame q p tag payload) s = .next (s.answer p ⟨.badSubject, []⟩)

/-- ISOLATE (R15), by the state of the line: a line on its bus or in its probe goes to OPEN and is ISOLATED by command, one
already off takes the cause COMMAND; timer, mark and waiting RESTORE end with RESTORE_ABORTED; NO_CHANGE and WRONG_STATE
where the rule says so. The exact result is for a line with no learn job whose move, if any, is not ended by it. -/
def Obligations.IsolateTakesALineOffByCommand : Prop :=
  ∀ (p : Port) (tag : Byte) (n : LineNo) (s : State), s.takes .isolate p (linePayload n) →
    ((s.line n).state = .disabled → exec (.isolate p tag (linePayload n)) s = .next (s.answer p ⟨.wrongState, []⟩)) ∧
    ((s.line n).state = .isolated ∧ (s.line n).cause = .command ∧ (s.line n).waiting = none →
      exec (.isolate p tag (linePayload n)) s = .next (s.answer p ⟨.noChange, []⟩)) ∧
    ((s.line n).state ≠ .disabled →
      ¬((s.line n).state = .isolated ∧ (s.line n).cause = .command ∧ (s.line n).waiting = none) →
      ∃ t, exec (.isolate p tag (linePayload n)) s = .next t ∧ (t.port p).reply = some ⟨.ok, []⟩ ∧
        (t.line n).state = .isolated ∧ (t.line n).cause = .command ∧
        ((s.line n).state ≠ .connected → (t.line n).waiting = none) ∧
        (t.line n).retryCount = (s.line n).retryCount ∧ t.store = s.store ∧
        ((s.line n).state = .isolated ∨ (s.line n).state = .locked →
          t = (completeIfAny (s.line n).waiting .restoreAborted (s.setLine n { s.line n with
            state := .isolated, cause := .command, timer := .idle, probeDue := false, waiting := none })).answer p
            ⟨.ok, []⟩) ∧
        (s.moveOutlasts n = true → s.learnsOn n = false →
          ((s.line n).state = .connected → t = ({ s.setLine n { (s.line n).sentTo .off with
              state := .isolated, cause := .command, candidate := none, count := 0 } with
            chan := { s.chan with confirm := s.chan.confirm.filter fun x => x ≠ .line n }
            move := t.move } : State).answer p ⟨.ok, []⟩) ∧
          ((s.line n).state = .probing → t = (completeIfAny (s.line n).waiting .restoreAborted
            { s.setLine n { (s.line n).sentTo .off with
              state := .isolated, cause := .command, passCount := 0, timer := .idle, waiting := none } with
            chan := { s.chan with verify := s.chan.verify.filter fun x => x ≠ .line n }
            move := t.move }).answer p ⟨.ok, []⟩) ∧
          (t.move = s.move ∨ t.move = s.move.map fun l => l.filter fun m => m ≠ n)))

/-- RESTORE (R16, R11): an ISOLATED or LOCKED line without a waiting RESTORE takes this one, with retry count 0 and the
timer idle; in SETTLING and ACTIVE without emergency its probe starts, at TEST and in the verify queue, otherwise it is due;
NO_CHANGE and WRONG_STATE where the rule says so. The exact result is for a line with no learn job whose move, if any, is
not ended by it, and where a probe starts, while a measurement is in flight. -/
def Obligations.RestoreStartsAProbeOrMarksItDue : Prop :=
  ∀ (p : Port) (tag : Byte) (n : LineNo) (s : State), s.takes .restore p (linePayload n) →
    ((s.line n).state = .disabled → exec (.restore p tag (linePayload n)) s = .next (s.answer p ⟨.wrongState, []⟩)) ∧
    ((s.line n).state = .connected ∨ (s.line n).state = .probing ∨
        (s.line n).state ≠ .disabled ∧ (s.line n).waiting ≠ none →
      exec (.restore p tag (linePayload n)) s = .next (s.answer p ⟨.noChange, []⟩)) ∧
    ((s.line n).state = .isolated ∨ (s.line n).state = .locked → (s.line n).waiting = none →
      ∃ t, exec (.restore p tag (linePayload n)) s = .next t ∧
        (t.port p).reply.map (·.code) = some .accepted ∧
        (t.line n).waiting = some ⟨p, tag, (s.port p).session, .restore⟩ ∧ (t.line n).retryCount = 0 ∧
        (t.line n).probeDue = (!(s.runs && !s.emergency)) ∧
        (t.line n).state = (if s.runs && !s.emergency then .probing else (s.line n).state) ∧
        (s.moveOutlasts n = true → s.learnsOn n = false →
          ((s.runs && !s.emergency) = false → t = (s.setLine n { s.line n with
              retryCount := 0, timer := .idle, probeDue := true
              waiting := some ⟨p, tag, (s.port p).session, .restore⟩ }).setPort p { s.port p with
              inFlight := (s.port p).inFlight + 1
              reply := some ⟨.accepted, [BitVec.ofNat 8 ((s.port p).outstanding + 1)]⟩ }) ∧
          ((s.runs && !s.emergency) = true → s.chan.inFlight.isSome →
            t = ({ s.setLine n { (s.line n).sentTo .test with
                state := .probing, cause := .noCause, zf := none, deviation := none, passCount := 0, timer := .idle
                probeDue := false, retryCount := 0, waiting := some ⟨p, tag, (s.port p).session, .restore⟩ } with
              chan := { s.chan with
                verify := if .line n ∈ s.chan.verify then s.chan.verify else s.chan.verify ++ [.line n] }
              move := t.move } : State).setPort p { s.port p with
                inFlight := (s.port p).inFlight + 1
                reply := some ⟨.accepted, [BitVec.ofNat 8 ((s.port p).outstanding + 1)]⟩ } ∧
              (t.move = s.move ∨ t.move = s.move.map fun l => l.filter fun m => m ≠ n))))

/-- ENABLE_LINE (R18): a DISABLED line becomes ISOLATED by command and enabled, every other runtime field but its
selector, current amplifier and epoch at its reset value, and UNCALIBRATED is raised for it if it has no reference;
any other line is NO_CHANGE. ENABLE_AMP (R83): a DISABLED amplifier becomes HEALTHY or FREE by its role, enabled,
with condition NORMAL, no debounce, no samples, its own carrying amplifier and its stamp moved on; a standby is
followed by a grant attempt; any other amplifier is NO_CHANGE. -/
def Obligations.EnableRequestsBringASubjectIntoSupervision : Prop :=
  (∀ (p : Port) (tag : Byte) (n : LineNo) (s : State), s.takes .enableLine p (linePayload n) →
    ((s.line n).state ≠ .disabled → exec (.enableLine p tag (linePayload n)) s = .next (s.answer p ⟨.noChange, []⟩)) ∧
    ((s.line n).state = .disabled → ∀ u, u = s.setLine n { resetLine n with
        cfg := { (s.line n).cfg with enabled := true }, state := .isolated, cause := .command
        selector := (s.line n).selector, relayLeft := (s.line n).relayLeft, current := (s.line n).current
        epoch := (s.line n).epoch } →
      exec (.enableLine p tag (linePayload n)) s = .next
        ((if (s.line n).cfg.zref = none then raise (.uncalibrated n) none u else u).answer p ⟨.ok, []⟩))) ∧
  ∀ (p : Port) (tag : Byte) (k : AmpNo) (s : State), s.takes .enableAmp p (ampPayload k) →
    ((s.amp k).state ≠ .disabled → exec (.enableAmp p tag (ampPayload k)) s = .next (s.answer p ⟨.noChange, []⟩)) ∧
    ((s.amp k).state = .disabled → ∀ u, u = s.setAmp k { s.amp k with
        cfg := { (s.amp k).cfg with enabled := true }
        state := if (s.amp k).cfg.role = .duty then .healthy else .free
        stamp := (s.amp k).stamp + 1, condition := .normal, candidate := none, count := 0, lastAc := none
        lastProt := none, carrying := k } →
      exec (.enableAmp p tag (ampPayload k)) s = .next
        ((if (s.amp k).cfg.role = .standby then grantAttempt arrival u else u).answer p ⟨.ok, []⟩))

/-- DISABLE_LINE (R19): refused during emergency, NO_CHANGE on a DISABLED line; on any other it completes: the line goes
to OPEN, leaves both queues, is no longer enabled and has its runtime and earth fields at their reset values; a
waiting RESTORE ends RESTORE_ABORTED and a learn job on the line LEARN_ABORTED, and no other completion is handed
on; none of its eight records stays active. The clauses on the selector, the completions and the records are for a
move that is not ended by it. CONFIGURE_LINE (R1, R2): refused during emergency, on a line on its bus or in its
probe and for a home that is no duty amplifier; otherwise it completes: every field is written as carried, brought
to the nearest limit of its range first, the hysteresis then below both windows, the current amplifier becomes what
the new home names as its carrying one, and the reply says whether a value was clamped. -/
def Obligations.DisableLineAndConfigureLineWriteTheLine : Prop :=
  (∀ (p : Port) (tag : Byte) (n : LineNo) (s : State), s.takes .disableLine p (linePayload n) →
    (s.emergency = true → exec (.disableLine p tag (linePayload n)) s = .next (s.answer p ⟨.emergency, []⟩)) ∧
    (s.emergency = false → (s.line n).state = .disabled →
      exec (.disableLine p tag (linePayload n)) s = .next (s.answer p ⟨.noChange, []⟩)) ∧
    (s.emergency = false → (s.line n).state ≠ .disabled →
      ∃ t, exec (.disableLine p tag (linePayload n)) s = .next t ∧ (t.port p).reply = some ⟨.ok, []⟩ ∧
        t.line n = { resetLine n with
          cfg := { (s.line n).cfg with enabled := false }
          selector := (t.line n).selector, relayLeft := (t.line n).relayLeft, current := (t.line n).current
          epoch := (t.line n).epoch, learn := (t.line n).learn } ∧
        t.store = s.store ∧
        (s.moveOutlasts n = true →
          (t.line n).selector = .off ∧ (t.line n).epoch = ((s.line n).sentTo .off).epoch ∧
          (t.line n).relayLeft = ((s.line n).sentTo .off).relayLeft ∧ (t.line n).current = (s.line n).current ∧
          (∀ m, m ≠ n → t.line m = s.line m) ∧
          t.chan.verify = (s.chan.verify.filter fun x => x ≠ .line n) ∧
          t.chan.confirm = (s.chan.confirm.filter fun x => x ≠ .line n) ∧
          s.learnsOn n = (s.chan.job.isSome && t.chan.job.isNone) ∧
          t.amps = s.amps ∧ t.co = s.co ∧ t.mc = s.mc ∧
          (∀ u, u = completeIfAny (s.line n).waiting .restoreAborted s →
            ∀ v, v = (if s.learnsOn n then completeIfAny (s.chan.job.map (·.requester)) .learnAborted u else u) →
            ∀ q, (t.port q).completions = (v.port q).completions ∧ (t.port q).inFlight = (v.port q).inFlight) ∧
          (s.tableOk = true → ∀ k, k ∈ [FaultKey.lineShort n, .lineOpen n, .earthLeak n, .lineLow n, .lineHigh n,
              .uncalibrated n, .blind n, .storeFault (.line n)] →
            t.holdsActive k = false ∧ ∀ d ∈ t.faults.deferred, d.key ≠ k)))) ∧
  ∀ (p : Port) (tag : Byte) (n : LineNo) (payload : List Byte) (s : State), s.takes .configureLine p payload →
    byteAt payload 0 = n.val →
    (s.emergency = true → exec (.configureLine p tag payload) s = .next (s.answer p ⟨.emergency, []⟩)) ∧
    (s.emergency = false →
      ((s.line n).state = .connected ∨ (s.line n).state = .probing →
        exec (.configureLine p tag payload) s = .next (s.answer p ⟨.wrongState, []⟩)) ∧
      ((s.line n).state ≠ .connected → (s.line n).state ≠ .probing →
        (6 ≤ byteAt payload 1 → exec (.configureLine p tag payload) s = .next (s.answer p ⟨.badSubject, []⟩)) ∧
        ∀ k : AmpNo, k.val = byteAt payload 1 →
          ((s.amp k).cfg.role = .standby →
            exec (.configureLine p tag payload) s = .next (s.answer p ⟨.badSubject, []⟩)) ∧
          ((s.amp k).cfg.role = .duty → ∀ asked, asked = lineFieldsAt payload 1 k (s.line n).cfg.enabled →
            ∃ t, exec (.configureLine p tag payload) s = .next t ∧
              (t.port p).reply = some ⟨if lineConfigOk asked then .ok else .clamped, []⟩ ∧
              lineConfigOk (t.line n).cfg = true ∧ (lineConfigOk asked = true → (t.line n).cfg = asked) ∧
              (∀ low, low = max 1 (min 999 asked.low) → ∀ high, high = max 1 (min 9999 asked.high) →
                (t.line n).cfg = {
                  enabled := (s.line n).cfg.enabled, home := k, gain := max 1 (min 4095 asked.gain)
                  zref := asked.zref.map (fun z => min 65534 z), low := low, high := high
                  hyst := min (min 255 asked.hyst) (min low high - 1), shortFloor := min 65534 asked.shortFloor
                  shift := min 4 asked.shift, raiseCount := max 1 (min 15 asked.raiseCount)
                  clearCount := max 1 (min 15 asked.clearCount), earthCheck := asked.earthCheck
                  threshold := max 1 (min 127 asked.threshold), autoRetry := asked.autoRetry
                  retryDelay := max 1 (min 255 asked.retryDelay), retryLimit := max 1 (min 7 asked.retryLimit) }) ∧
              (t.line n).current = (s.amp k).carrying ∧
              t.line n = { s.line n with
                cfg := (t.line n).cfg, current := (t.line n).current, state := (t.line n).state
                cause := (t.line n).cause, timer := (t.line n).timer, candidate := (t.line n).candidate
                count := (t.line n).count, deviation := (t.line n).deviation, lastLc := (t.line n).lastLc
                earth := (t.line n).earth, earthCandidate := (t.line n).earthCandidate
                earthCount := (t.line n).earthCount } ∧
              (∀ m, m ≠ n → t.line m = s.line m) ∧
              t = { s with
                lines := t.lines, faults := t.faults, ports := t.ports
                chan := { s.chan with confirm := t.chan.confirm } })))

/-! ### Amplifier readings (05) -/

/-- What AMP readings do to amplifiers and to the changeover queue (R75 to R81, R89, R90, R96), in ACTIVE. A debounce step
takes a HEALTHY amplifier into SUSPECT and back. A confirmed FAIL raises AMP_FAIL with the reading: a duty amplifier becomes
FAILED and an AUTO COVER of it joins with a new sequence, or its entry or its operation in flight becomes AUTO, with NO_COVER
raised where no standby is grantable; a RELIEVED one becomes COVERED; a FAILED one's queued return becomes a cover again; a
standby becomes FAULTY, its cover in flight is given up, or the amplifier it covers loses its cover: FAILED with an AUTO COVER,
or HEALTHY with an AUTO RETURN, under its former cover sequence. A confirmed NORMAL clears AMP_FAIL: a FAULTY standby becomes
FREE and may be granted; a FAILED amplifier becomes HEALTHY with its cover MANUAL again or removed, or, with its lines
elsewhere, its cover becomes an AUTO RETURN, and NO_COVER is cleared; a COVERED one, and one whose operation is in flight,
stays. The exact queues are for another operation in flight, or a queue that is empty before. -/
def Obligations.AmplifierReadingsMoveAmplifiersAndAskForCover : Prop :=
  ∀ (k : AmpNo) (ac : Code) (prot : Bool) (s : State) (m : Measurement), s.chan.inFlight = some m →
    s.mc.resetInForce = none → m.target = .amp k → m.cls = .scan ∨ m.cls = .confirm →
    m.stampCopy = some (s.amp k).stamp → s.mc.mode = .active → s.move ≠ some [] →
    ∀ x, x = s.amp k → x.state ≠ .disabled →
    ∀ d, d = debounce x.condition x.candidate x.count (requiredCondition x.cfg)
      (if x.cfg.amin ≤ ac.val ∧ prot = false then .normal else .fail) →
    ∀ y, y = { x with
        lastAc := some ac, lastProt := some prot, condition := d.confirmed, candidate := d.candidate, count := d.count } →
    ∀ f, f = raise (.ampFail k) (some (.amp ac prot)) s →
    ∀ c, c = clear (.ampFail k) (some (.amp ac prot)) s →
    ∃ t, exec (.measurementCompletion (.amp ac false prot)) s = .next t ∧ t.store = s.store ∧
      (d.changed = false →
        t.amp k = (if x.state = .healthy ∧ d.candidate = some .fail then { y with state := .suspect, stamp := x.stamp + 1 }
          else if x.state = .suspect ∧ d.count = 0 then { y with state := .healthy, stamp := x.stamp + 1 } else y) ∧
        (∀ j, j ≠ k → t.amp j = s.amp j) ∧ t.co = s.co ∧ t.faults = s.faults) ∧
      (d.changed = true → d.confirmed = .fail → x.cfg.role = .duty →
        (x.state = .relieved →
          t.amp k = { y with state := .covered, stamp := x.stamp + 1 } ∧ t.co = s.co ∧ t.faults = f.faults) ∧
        (x.state = .covered → t.amp k = y ∧ t.co = s.co ∧ t.faults = f.faults) ∧
        (x.state = .healthy ∨ x.state = .suspect →
          (t.amp k).state = .failed ∧ (t.amp k).stamp = x.stamp + 1 ∧
          ∀ w, w = (if s.chosenStandby k = none then raise (.noCover k) none f else f) →
          ∀ e, e = (⟨k, .cover, .auto, none, s.co.seqCounter⟩ : CoEntry) →
          (∀ o, s.co.op = some o → (∀ j, j ≠ k → t.amp j = s.amp j) ∧
            t.amp k = { y with state := .failed, stamp := x.stamp + 1 } ∧
            (o.duty = k → t.co = { s.co with op := some { o with origin := .auto } } ∧ t.faults = f.faults) ∧
            (o.duty ≠ k → t.faults = w.faults ∧
              ((∀ z ∈ s.co.queue, z.duty ≠ k) →
                t.co = { s.co with seqCounter := s.co.seqCounter + 1, queue := insertEntry e s.co.queue }) ∧
              ∀ z, s.co.queue.find? (fun z => z.duty = k) = some z → t.co = { s.co with
                queue := insertEntry { z with kind := .cover, origin := .auto }
                  (s.co.queue.filter fun z => z.duty ≠ k) })) ∧
          (s.co.op = none → s.co.queue = [] → s.chosenStandby k = none →
            t.amp k = { y with state := .failed, stamp := x.stamp + 1 } ∧ t.faults = w.faults ∧
            t.co = { s.co with seqCounter := s.co.seqCounter + 1, queue := [e] }) ∧
          ∀ z, s.chosenStandby k = some z → s.co.op = none → s.co.queue = [] → s.moveStarts x.carrying z = true →
            t.co = { s.co with
              seqCounter := s.co.seqCounter + 1
              op := some ⟨.cover, k, z, .auto, none, s.co.seqCounter, none, .moving⟩ } ∧
            t.amp k = { y with state := .failed, stamp := x.stamp + 1, carrying := z } ∧
            (t.amp z).state = .busy ∧ (t.amp z).coveredAmp = some k ∧
            ∀ n, (s.line n).current = x.carrying → (t.line n).current = z) ∧
        (x.state = .failed → ∀ o, s.co.op = some o → o.duty ≠ k →
          ∀ z, s.co.queue.find? (fun z => z.duty = k) = some z → z.kind = .returnLines →
          t.amp k = y ∧ t.co = { s.co with
            queue := insertEntry { z with kind := .cover, origin := .auto } (s.co.queue.filter fun z => z.duty ≠ k) } ∧
          t.faults = (if s.chosenStandby k = none then raise (.noCover k) none f else f).faults)) ∧
      (d.changed = true → d.confirmed = .fail → x.cfg.role = .standby →
        (t.amp k).state = .faulty ∧ (t.amp k).coveredAmp = none ∧ (t.amp k).condition = .fail ∧
        (x.state = .free → t.amp k = { y with state := .faulty, stamp := x.stamp + 1, coveredAmp := none } ∧
          (∀ j, j ≠ k → t.amp j = s.amp j) ∧ t.co = s.co ∧ t.faults = f.faults) ∧
        ∀ j, x.coveredAmp = some j → x.state = .busy → j ≠ k →
          (∀ o, s.co.op = some o → o.kind = .cover → o.standby = k → o.phase ≠ .movingBack → o.duty = j →
            (s.moveStarts k j = true ∨ (∀ e ∈ s.co.queue, (s.amp e.duty).cfg.role = .duty) →
              t.amp k = { y with state := .faulty, stamp := x.stamp + 1, coveredAmp := none }) ∧
            (s.moveStarts k j = true → t.faults = f.faults ∧ (t.amp j).carrying = j ∧
              t.co = { s.co with op := some { o with phase := .movingBack } } ∧
              (∀ n, (s.line n).current = k → (t.line n).current = j) ∧ .amp k ∉ t.chan.verify)) ∧
          (∀ q, (s.amp j).coverSeq = some q → ∀ o, s.co.op = some o →
            ¬(o.kind = .cover ∧ o.standby = k ∧ o.phase ≠ .movingBack) →
            (s.amp j).state = .covered ∨ (s.amp j).state = .relieved →
            t.amp j = { s.amp j with
              state := if (s.amp j).state = .covered then .failed else .healthy, stamp := (s.amp j).stamp + 1
              coveringStandby := none, coverSeq := none } ∧
            (o.duty = j → t.faults = f.faults ∧
              t.co = { s.co with op := some { o with origin := if (s.amp j).state = .covered then .auto else o.origin } }) ∧
            (o.duty ≠ j →
              t.faults = (if (s.amp j).state = .covered ∧ s.chosenStandby j = none then raise (.noCover j) none f
                else f).faults ∧
              (∀ e, e = (⟨j, if (s.amp j).state = .covered then .cover else .returnLines, .auto, none, q⟩ : CoEntry) →
                (∀ z ∈ s.co.queue, z.duty ≠ j) → t.co = { s.co with queue := insertEntry e s.co.queue }) ∧
              ∀ z, s.co.queue.find? (fun z => z.duty = j) = some z → t.co = (if (s.amp j).state = .covered then { s.co with
                  queue := insertEntry { z with kind := .cover, origin := .auto } (s.co.queue.filter fun z => z.duty ≠ j) }
                else s.co)))) ∧
      (d.changed = true → d.confirmed = .normal →
        (x.state = .covered → t.amp k = y ∧ t.co = s.co ∧ t.faults = c.faults) ∧
        (x.state = .faulty → s.co.op.isSome ∨ s.co.queue = [] →
          t.amp k = { y with state := .free, stamp := x.stamp + 1 } ∧ (∀ j, j ≠ k → t.amp j = s.amp j) ∧ t.co = s.co ∧
          t.faults = c.faults) ∧
        (∀ e, s.co.queue.head? = some e → x.state = .faulty → x.cfg.role = .standby → s.co.op = none →
          s.co.queue.tail = [] → e.kind = .cover → e.origin = .auto ∨ s.emergency = false → e.duty ≠ k →
          s.chosenStandby e.duty = none →
          (∀ j, (s.amp j).cfg.role = .duty → (s.amp j).carrying ≠ k) → s.moveStarts (s.amp e.duty).carrying k = true →
          (t.amp k).state = .busy ∧ (t.amp k).coveredAmp = some e.duty ∧ t.co = { s.co with
            queue := [], op := some ⟨.cover, e.duty, k, e.origin, e.requester, e.seq, none, .moving⟩ } ∧
          t.faults = (clear (.noCover e.duty) none c).faults) ∧
        (x.state = .failed → ∀ o, s.co.op = some o →
          (o.duty = k → t.amp k = y ∧ t.co = s.co ∧ t.faults = c.faults) ∧
          ∀ e, s.co.queue.find? (fun z => z.duty = k) = some e → o.duty ≠ k → e.kind = .cover →
            t.faults = (clear (.noCover k) none c).faults ∧
            ∀ others, others = s.co.queue.filter (fun z => z.duty ≠ k) →
            (x.carrying = k → t.amp k = { y with state := .healthy, stamp := x.stamp + 1 } ∧
              t.co = { s.co with
                queue := if e.requester = none then others else insertEntry { e with origin := .manual } others }) ∧
            (x.carrying ≠ k → t.amp k = y ∧
              t.co = { s.co with queue := insertEntry { e with kind := .returnLines, origin := .auto } others })))

/-! ### Speaker lines (01, 03) -/

/-- The effects of an accepted CONFIGURE_LINE on the runtime fields (R2): a changed reference drops the debounce,
recomputes the deviation and takes the line out of the confirm queue; changed earth settings or counts drop the earth
debounce (R68), and turning the earth check off forgets the earth state, which otherwise stands, also where the check was
off already (DEDUCED, log entry 20); a line isolated for protection locks at a limit it has
reached, loses its timer with auto retry off, and starts it where it was idle with auto retry on. In the fault table an enabled line
whose reference becomes absent raises UNCALIBRATED and one whose changed reference is present clears it, and turning the earth
check off then clears EARTH_LEAK (R2, R66); nothing else is sent, so that a changed trip level or count with the check on clears
no EARTH_LEAK (R66 speaks of a third clear by the correction of R68, which states none: DEDUCED, log entry 30). -/
def Obligations.ConfigureLineActsOnTheRuntimeFields : Prop :=
  ∀ (p : Port) (tag : Byte) (n : LineNo) (payload : List Byte) (s : State), s.takes .configureLine p payload →
    byteAt payload 0 = n.val → s.emergency = false →
    (s.line n).state = .isolated ∨ (s.line n).state = .locked ∨ (s.line n).state = .disabled →
    byteAt payload 1 ≤ 5 → (∀ k : AmpNo, k.val = byteAt payload 1 → (s.amp k).cfg.role = .duty) →
    ∃ t, exec (.configureLine p tag payload) s = .next t ∧
      ((t.line n).cfg.zref ≠ (s.line n).cfg.zref →
        (t.line n).candidate = none ∧ (t.line n).count = 0 ∧
        (t.line n).deviation = deviationOf (t.line n).cfg.zref (s.line n).zf ∧
        t.chan.confirm = s.chan.confirm.filter fun x => x ≠ .line n) ∧
      ((t.line n).cfg.zref = (s.line n).cfg.zref →
        (t.line n).candidate = (s.line n).candidate ∧ (t.line n).count = (s.line n).count ∧
        (t.line n).deviation = (s.line n).deviation ∧ t.chan = s.chan) ∧
      (∀ u, u = (if (t.line n).cfg.zref = (s.line n).cfg.zref ∨ (s.line n).state = .disabled then s
            else if (t.line n).cfg.zref = none then raise (.uncalibrated n) none s
            else clear (.uncalibrated n) none s) →
        t.faults = (if (s.line n).cfg.earthCheck = true ∧ (t.line n).cfg.earthCheck = false then
          clear (.earthLeak n) none u else u).faults) ∧
      ((t.line n).cfg.earthCheck ≠ (s.line n).cfg.earthCheck ∨ (t.line n).cfg.threshold ≠ (s.line n).cfg.threshold ∨
          (t.line n).cfg.raiseCount ≠ (s.line n).cfg.raiseCount ∨ (t.line n).cfg.clearCount ≠ (s.line n).cfg.clearCount →
        (t.line n).earthCandidate = none ∧ (t.line n).earthCount = 0) ∧
      ((s.line n).cfg.earthCheck = true → (t.line n).cfg.earthCheck = false →
        (t.line n).earth = .normal ∧ (t.line n).lastLc = none) ∧
      (¬((s.line n).cfg.earthCheck = true ∧ (t.line n).cfg.earthCheck = false) →
        (t.line n).earth = (s.line n).earth ∧ (t.line n).lastLc = (s.line n).lastLc) ∧
      ((s.line n).state = .isolated ∧ (s.line n).cause = .protective →
        ((t.line n).cfg.retryLimit ≤ (s.line n).retryCount →
          (t.line n).state = .locked ∧ (t.line n).cause = .lockout ∧ (t.line n).timer = .idle) ∧
        ((s.line n).retryCount < (t.line n).cfg.retryLimit →
          (t.line n).state = .isolated ∧ (t.line n).cause = .protective ∧
          ((t.line n).cfg.autoRetry = false → (t.line n).timer = .idle) ∧
          ((t.line n).cfg.autoRetry = true → (t.line n).timer =
            if (s.line n).timer = .idle then
              if s.runs then .running ((t.line n).cfg.retryDelay * 1000) else .frozen ((t.line n).cfg.retryDelay * 1000)
            else (s.line n).timer))) ∧
      (¬((s.line n).state = .isolated ∧ (s.line n).cause = .protective) →
        (t.line n).state = (s.line n).state ∧ (t.line n).cause = (s.line n).cause ∧ (t.line n).timer = (s.line n).timer)

/-- An order for another position starts a relay operation and moves the epoch on, and the learn job of that line, and of no
other, ends LEARN_ABORTED: no accumulator, no job, its sample in flight discarded, its completion handed on (R5, R58). -/
def Obligations.SelectorOrderStartsARelayAndAbortsLearning : Prop :=
  ∀ (n : LineNo) (pos : Selector) (s : State),
    ((s.line n).selector = pos → orderSelector n pos s = s) ∧
    ((s.line n).selector ≠ pos → ∀ t, t = orderSelector n pos s →
      (∀ m, m ≠ n → t.line m = s.line m) ∧
      t.line n = { s.line n with
        selector := pos, relayLeft := some 12, epoch := (s.line n).epoch + 1
        learn := if s.learnsOn n then none else (s.line n).learn } ∧
      t.move = s.move.map (fun l => l.filter fun m => m ≠ n) ∧
      (s.learnsOn n = false → t = { s with lines := t.lines, move := t.move }) ∧
      ∀ j, s.chan.job = some j → j.line = n →
        t = { s with
          lines := t.lines, move := t.move, ports := t.ports
          chan := { s.chan with
            job := none
            inFlight := s.chan.inFlight.map fun m => { m with orphan := m.orphan || m.cls = .learn } } } ∧
        (j.requester.session = (s.port j.requester.port).session → 0 < (s.port j.requester.port).inFlight →
          t.ports = s.ports.set j.requester.port { s.port j.requester.port with
            inFlight := (s.port j.requester.port).inFlight - 1
            completions := (s.port j.requester.port).completions ++
              [⟨j.requester.tag, j.requester.request, .learnAborted⟩] }))

/-- A move takes every line of one amplifier to another and orders the selectors of the CONNECTED ones alone; it waits for
the lines whose relay operation it has started, and touches no amplifier and no changeover state (R7). -/
def Obligations.MoveTakesEveryLineOfAnAmplifier : Prop :=
  ∀ (x y : AmpNo) (s : State), ∀ t, t = moveLines x y s →
    (∀ n, ((s.line n).current ≠ x → t.line n = s.line n) ∧
      ((s.line n).current = x → (s.line n).state ≠ .connected → t.line n = { s.line n with current := y }) ∧
      ((s.line n).current = x → (s.line n).state = .connected →
        t.line n = { (s.line n).sentTo (.bus y) with
          current := y
          learn := if (s.line n).selector ≠ .bus y && s.learnsOn n then none else (s.line n).learn })) ∧
    (∀ l, t.move = some l → ∀ n, n ∈ l ↔
      ((s.line n).current = x ∧ (s.line n).state = .connected ∧ (s.line n).selector ≠ .bus y)) ∧
    t.move.isSome ∧ t.amps = s.amps ∧ t.co = s.co ∧ t.mc = s.mc ∧ t.store = s.store ∧ t.faults = s.faults ∧
    t.chan.verify = s.chan.verify ∧ t.chan.confirm = s.chan.confirm ∧ t.chan.round = s.chan.round

/-- A completion joins its port's list, taking one from the in-flight count, when its session is the port's and the count
is above 0, and is discarded otherwise; the outstanding count stands (R143, R175). -/
def Obligations.CompletionJoinsTheListOfItsSession : Prop :=
  ∀ (r : Requester) (o : CompletionOutcome) (s : State),
    (r.session = (s.port r.port).session → 0 < (s.port r.port).inFlight → ∀ t, t = complete r o s →
      t = s.setPort r.port { s.port r.port with
        inFlight := (s.port r.port).inFlight - 1
        completions := (s.port r.port).completions ++ [⟨r.tag, r.request, o⟩] } ∧
      (t.port r.port).outstanding = (s.port r.port).outstanding ∧ t.attention r.port = true) ∧
    (r.session ≠ (s.port r.port).session ∨ (s.port r.port).inFlight = 0 → complete r o s = s)

/-- LEARN (R55): refused in the order EMERGENCY, NOT_RUNNING, BUSY, WRONG_STATE; otherwise ACCEPTED, and while a measurement
is in flight the job with its requester and an empty accumulator are all that is new. -/
def Obligations.LearnChecksInOrderAndStartsTheJob : Prop :=
  ∀ (p : Port) (tag : Byte) (n : LineNo) (s : State), s.takes .learn p (linePayload n) →
    (s.emergency = true → exec (.learn p tag (linePayload n)) s = .next (s.answer p ⟨.emergency, []⟩)) ∧
    (s.emergency = false →
      (s.runs = false → exec (.learn p tag (linePayload n)) s = .next (s.answer p ⟨.notRunning, []⟩)) ∧
      (s.runs = true →
        (s.chan.job.isSome → exec (.learn p tag (linePayload n)) s = .next (s.answer p ⟨.busy, []⟩)) ∧
        (s.chan.job = none →
          ((s.line n).state ≠ .connected →
            exec (.learn p tag (linePayload n)) s = .next (s.answer p ⟨.wrongState, []⟩)) ∧
          ((s.line n).state = .connected → ∃ t, exec (.learn p tag (linePayload n)) s = .next t ∧
            (t.port p).reply.map (·.code) = some .accepted ∧ t.store = s.store ∧
            (s.chan.inFlight.isSome →
              t = ({ s.setLine n { s.line n with learn := some ⟨0, 0⟩ } with
                chan := { s.chan with job := some ⟨n, ⟨p, tag, (s.port p).session, .learn⟩, 0⟩ } } : State).setPort p
                  { s.port p with
                    inFlight := (s.port p).inFlight + 1
                    reply := some ⟨.accepted, [BitVec.ofNat 8 ((s.port p).outstanding + 1)]⟩ })))))

/-! ### Changeover and amplifier requests (05, 06) -/

/-- The standby chosen for a cover is the lowest-numbered FREE one that is the duty amplifier's carrying amplifier or
that of no duty amplifier (R88). A grant attempt (R91) does nothing while an operation is in flight or outside
SETTLING and ACTIVE, or where no entry qualifies: an AUTO RETURN always does, a MANUAL entry only without emergency,
and a COVER only with a grantable standby. Otherwise the first entry in list order that qualifies leaves the queue,
whatever entries that do not stand before it, and its operation is in flight; a cover's standby is BUSY with it. A
return that fails its verify (R82, R100): FAIL is recorded on the duty amplifier with the reading and AMP_FAIL
raised; where the standby is still BUSY with it, it is COVERED and its lines go back; otherwise, the duty
amplifier's own bus among the rest (R98), it is FAILED, the return ends RETURN_FAILED and an AUTO COVER with the
resume sequence joins. When the move back is done, a failed cover is queued again with its sequence and requester
(R97): AUTO for a FAILED amplifier in condition FAIL; MANUAL, or none without a requester, for one that has
recovered, which becomes HEALTHY; MANUAL for a HEALTHY or SUSPECT one; and a failed return ends RETURN_FAILED, with
an AUTO COVER of an amplifier that is FAILED (R101). NO_COVER is raised and cleared with them (R90). The exact
queues are for entries that do not qualify for a grant; where a learn job runs, a grant that follows may end it and
hand its completion on after these (R58). -/
def Obligations.GrantsServeTheQueueAndFailedChangeoversJoinItAgain : Prop :=
  ((∀ (d x : AmpNo) (s : State), s.chosenStandby d = some x ↔
    ((s.amp x).cfg.role = .standby ∧ (s.amp x).state = .free ∧
      ((s.amp d).carrying = x ∨ ∀ e : AmpNo, (s.amp e).cfg.role = .duty → (s.amp e).carrying ≠ x)) ∧
    ∀ y : AmpNo, y < x → ¬((s.amp y).cfg.role = .standby ∧ (s.amp y).state = .free ∧
      ((s.amp d).carrying = y ∨ ∀ e : AmpNo, (s.amp e).cfg.role = .duty → (s.amp e).carrying ≠ y))) ∧
  ∀ (s : State),
    (s.co.op.isSome ∨ s.runs = false → grantAttempt arrival s = s) ∧
    ((∀ e ∈ s.co.queue, s.passesOver e = true) → grantAttempt arrival s = s) ∧
    ∀ pre e rest, s.co.queue = pre ++ e :: rest → s.co.op = none → s.runs = true →
      (∀ x ∈ pre, s.passesOver x = true) → s.emergency = false ∨ e.origin = .auto →
      (∀ x ∈ pre ++ rest, x.duty ≠ e.duty) →
      (e.kind = .returnLines → s.moveStarts (s.amp e.duty).carrying e.duty = true →
        (grantAttempt arrival s).co = { s.co with
          queue := pre ++ rest
          op := some ⟨.returnLines, e.duty, (s.amp e.duty).carrying, e.origin, e.requester, e.seq,
            some ((s.amp e.duty).coverSeq.getD e.seq), .moving⟩ } ∧
        (grantAttempt arrival s).amp e.duty = { s.amp e.duty with carrying := e.duty } ∧
        (grantAttempt arrival s).faults = s.faults) ∧
      ∀ x, s.chosenStandby e.duty = some x → e.kind = .cover → s.moveStarts (s.amp e.duty).carrying x = true →
        e.duty ≠ x →
        (grantAttempt arrival s).co = { s.co with
          queue := pre ++ rest
          op := some ⟨.cover, e.duty, x, e.origin, e.requester, e.seq, none, .moving⟩ } ∧
        (grantAttempt arrival s).amp x = { s.amp x with
          state := .busy, stamp := (s.amp x).stamp + 1, coveredAmp := some e.duty } ∧
        (grantAttempt arrival s).amp e.duty = { s.amp e.duty with carrying := x } ∧
        (grantAttempt arrival s).faults = (clear (.noCover e.duty) none s).faults) ∧
  (∀ (k : AmpNo) (ac : Code) (prot : Bool) (s : State) (m : Measurement), s.chan.inFlight = some m →
    s.mc.resetInForce = none → m.target = .amp k → m.cls = .verify → m.stampCopy = some (s.amp k).stamp →
    s.mc.mode = .active → s.move ≠ some [] →
    ∀ o, s.co.op = some o → o.phase = .verifying → o.kind = .returnLines → o.duty = k →
    ac.val < (s.amp k).cfg.amin ∨ prot = true ∨ (s.amp k).condition = .fail →
    ∀ y, y = { s.amp k with
        condition := .fail, candidate := none, count := 0, lastAc := some ac, lastProt := some prot } →
    ∀ f, f = raise (.ampFail k) (some (.amp ac prot)) s →
    ∃ t, exec (.measurementCompletion (.amp ac false prot)) s = .next t ∧ t.store = s.store ∧
      .amp k ∉ t.chan.confirm ∧
      (o.standby ≠ k → (s.amp o.standby).state = .busy → (s.amp o.standby).coveredAmp = some k →
        s.moveStarts k o.standby = true →
        t.amp k = { y with
          state := if y.state = .relieved then .covered else y.state
          stamp := if y.state = .relieved then y.stamp + 1 else y.stamp
          carrying := o.standby } ∧
        (∀ j, j ≠ k → t.amp j = s.amp j) ∧ t.co = { s.co with op := some { o with phase := .movingBack } } ∧
        t.faults = f.faults ∧ ∀ n, (s.line n).current = k → (t.line n).current = o.standby) ∧
      ((s.amp o.standby).state ≠ .busy ∨ (s.amp o.standby).coveredAmp ≠ some k →
        (t.amp k).state = .failed ∧ (t.amp k).coveringStandby = none ∧ (t.amp k).coverSeq = none ∧
        (∀ r, o.requester = some r → r.session = (s.port r.port).session → 0 < (s.port r.port).inFlight →
          (s.port r.port).completions ++ [⟨r.tag, r.request, .returnFailed⟩] <+: (t.port r.port).completions ∧
          (s.chan.job = none →
            (t.port r.port).completions = (s.port r.port).completions ++ [⟨r.tag, r.request, .returnFailed⟩])) ∧
        ∀ e, e = (⟨k, .cover, .auto, none, o.resumeSeq.getD o.seq⟩ : CoEntry) →
          ((∀ x ∈ s.co.queue, s.passesOver x = true) → s.chosenStandby k = none →
            t.co = { s.co with op := none, queue := insertEntry e s.co.queue } ∧
            t.faults = (raise (.noCover k) none f).faults ∧ (t.amp k).carrying = (s.amp k).carrying) ∧
          ∀ x, s.chosenStandby k = some x → k ≠ x → s.co.queue = [] → s.moveStarts (s.amp k).carrying x = true →
            t.co = { s.co with op := some ⟨.cover, k, x, .auto, none, e.seq, none, .moving⟩ } ∧
            (t.amp x).state = .busy ∧ (t.amp x).coveredAmp = some k)) ∧
  ∀ (n : LineNo) (s : State), s.mc.resetInForce = none → (s.line n).relayLeft.isSome → s.move = some [n] →
    s.chan.inFlight.isSome → s.mc.mode = .active →
    ∀ o, s.co.op = some o → o.phase = .movingBack → ∀ d, d = s.amp o.duty →
    ∀ e, e = (⟨o.duty, .cover, .auto, o.requester, o.seq⟩ : CoEntry) →
    ∃ t, exec (.relayCompletion n) s = .next t ∧ t.store = s.store ∧
      (o.kind = .cover → (s.chan.job = none → ∀ p, (t.port p).completions = (s.port p).completions) ∧
        (∀ x, s.chosenStandby o.duty = some x → d.state = .failed → d.condition = .fail → s.co.queue = [] →
          s.moveStarts d.carrying x = true →
          t.co = { s.co with op := some ⟨.cover, o.duty, x, .auto, o.requester, o.seq, none, .moving⟩ } ∧
          (t.amp x).state = .busy ∧ (t.amp x).coveredAmp = some o.duty) ∧
        ((∀ x ∈ s.co.queue, s.passesOver x = true) → s.chosenStandby o.duty = none →
          (d.state = .failed → d.condition = .fail → t.amps = s.amps ∧ t.faults = (raise (.noCover o.duty) none s).faults ∧
            t.co = { s.co with op := none, queue := insertEntry e s.co.queue }) ∧
          (d.state = .failed → d.condition = .normal →
            t.amp o.duty = { d with state := .healthy, stamp := d.stamp + 1 } ∧
            t.faults = (clear (.noCover o.duty) none s).faults ∧ t.co = { s.co with
              op := none
              queue := if o.requester = none then s.co.queue else insertEntry { e with origin := .manual } s.co.queue }) ∧
          (d.state = .healthy ∨ d.state = .suspect → t.amps = s.amps ∧ t.faults = s.faults ∧
            t.co = { s.co with op := none, queue := insertEntry { e with origin := .manual } s.co.queue }))) ∧
      (o.kind = .returnLines →
        (∀ r, o.requester = some r → r.session = (s.port r.port).session → 0 < (s.port r.port).inFlight →
          (s.port r.port).completions ++ [⟨r.tag, r.request, .returnFailed⟩] <+: (t.port r.port).completions ∧
          (s.chan.job = none →
            (t.port r.port).completions = (s.port r.port).completions ++ [⟨r.tag, r.request, .returnFailed⟩])) ∧
        ((∀ x ∈ s.co.queue, s.passesOver x = true) →
          (d.state = .covered → t.amps = s.amps ∧ t.faults = s.faults ∧ t.co = { s.co with op := none }) ∧
          (d.state = .failed → s.chosenStandby o.duty = none → t.amps = s.amps ∧
            t.faults = (raise (.noCover o.duty) none s).faults ∧ t.co = { s.co with
              op := none
              queue := insertEntry { e with requester := none, seq := o.resumeSeq.getD o.seq } s.co.queue })))

/-- COVER (R102): refused in the order EMERGENCY, NOT_RUNNING, NO_CHANGE, WRONG_STATE, NO_STANDBY; otherwise ACCEPTED, and
a MANUAL entry with a new sequence number joins. It waits where an operation is in flight or no standby is grantable; with
an empty queue and a grantable standby whose grant moves a selector, that standby is BUSY with it before the reply. -/
def Obligations.CoverChecksInOrderAndJoinsTheQueue : Prop :=
  ∀ (p : Port) (tag : Byte) (d : AmpNo) (s : State), s.takes .cover p (ampPayload d) →
    (s.emergency = true → exec (.cover p tag (ampPayload d)) s = .next (s.answer p ⟨.emergency, []⟩)) ∧
    (s.emergency = false →
      (s.runs = false → exec (.cover p tag (ampPayload d)) s = .next (s.answer p ⟨.notRunning, []⟩)) ∧
      (s.runs = true → ∀ engaged, engaged = ((s.co.queue.any fun e => e.duty = d) || s.co.op.any fun o => o.duty = d) →
        (engaged = true → exec (.cover p tag (ampPayload d)) s = .next (s.answer p ⟨.noChange, []⟩)) ∧
        (engaged = false →
          ((s.amp d).cfg.role ≠ .duty ∨ ((s.amp d).state ≠ .healthy ∧ (s.amp d).state ≠ .suspect) →
            exec (.cover p tag (ampPayload d)) s = .next (s.answer p ⟨.wrongState, []⟩)) ∧
          ((s.amp d).cfg.role = .duty → (s.amp d).state = .healthy ∨ (s.amp d).state = .suspect →
            ((∀ k : AmpNo, ¬((s.amp k).cfg.role = .standby ∧ (s.amp k).cfg.enabled = true)) →
              exec (.cover p tag (ampPayload d)) s = .next (s.answer p ⟨.noStandby, []⟩)) ∧
            ((∃ k : AmpNo, (s.amp k).cfg.role = .standby ∧ (s.amp k).cfg.enabled = true) →
              ∃ t, exec (.cover p tag (ampPayload d)) s = .next t ∧
                (t.port p).reply.map (·.code) = some .accepted ∧ t.store = s.store ∧
                (s.co.op.isSome ∨ s.co.queue = [] ∧ s.chosenStandby d = none →
                  t = ({ s with co := { s.co with
                    seqCounter := s.co.seqCounter + 1
                    queue := insertEntry ⟨d, .cover, .manual, some ⟨p, tag, (s.port p).session, .cover⟩,
                      s.co.seqCounter⟩ s.co.queue } } : State).setPort p { s.port p with
                        inFlight := (s.port p).inFlight + 1
                        reply := some ⟨.accepted, [BitVec.ofNat 8 ((s.port p).outstanding + 1)]⟩ }) ∧
                ∀ x, s.chosenStandby d = some x → s.co.op = none → s.co.queue = [] →
                  (∃ n, (s.line n).current = (s.amp d).carrying ∧ (s.line n).state = .connected ∧
                    (s.line n).selector ≠ .bus x) →
                  t.co = { s.co with
                    seqCounter := s.co.seqCounter + 1
                    op := some ⟨.cover, d, x, .manual, some ⟨p, tag, (s.port p).session, .cover⟩, s.co.seqCounter, none,
                      .moving⟩ } ∧
                  (t.amp x).state = .busy ∧ (t.amp x).coveredAmp = some d ∧ (t.amp x).stamp = (s.amp x).stamp + 1 ∧
                  (d ≠ x → (t.amp d) = { s.amp d with carrying := x }) ∧
                  (∀ k, k ≠ d → k ≠ x → t.amp k = s.amp k) ∧
                  ∀ n, (s.line n).current = (s.amp d).carrying → (t.line n).current = x)))))

/-- RETURN (R103): refused in the order EMERGENCY, NOT_RUNNING, NO_CHANGE, WRONG_STATE; otherwise ACCEPTED, and a MANUAL
entry with a new sequence number joins. It waits where an operation is in flight; with an empty queue and a move that
starts a relay operation, the operation is in flight before the reply and the lines are on their way home. -/
def Obligations.ReturnChecksInOrderAndJoinsTheQueue : Prop :=
  ∀ (p : Port) (tag : Byte) (d : AmpNo) (s : State), s.takes .returnLines p (ampPayload d) →
    (s.emergency = true → exec (.returnLines p tag (ampPayload d)) s = .next (s.answer p ⟨.emergency, []⟩)) ∧
    (s.emergency = false →
      (s.runs = false → exec (.returnLines p tag (ampPayload d)) s = .next (s.answer p ⟨.notRunning, []⟩)) ∧
      (s.runs = true → ∀ engaged, engaged = ((s.co.queue.any fun e => e.duty = d) || s.co.op.any fun o => o.duty = d) →
        (engaged = true → exec (.returnLines p tag (ampPayload d)) s = .next (s.answer p ⟨.noChange, []⟩)) ∧
        (engaged = false →
          ((s.amp d).state ≠ .covered ∧ (s.amp d).state ≠ .relieved →
            exec (.returnLines p tag (ampPayload d)) s = .next (s.answer p ⟨.wrongState, []⟩)) ∧
          ((s.amp d).state = .covered ∨ (s.amp d).state = .relieved →
            ∃ t, exec (.returnLines p tag (ampPayload d)) s = .next t ∧
              (t.port p).reply.map (·.code) = some .accepted ∧ t.store = s.store ∧
              (s.co.op.isSome → t = ({ s with co := { s.co with
                seqCounter := s.co.seqCounter + 1
                queue := insertEntry ⟨d, .returnLines, .manual, some ⟨p, tag, (s.port p).session, .returnLines⟩,
                  s.co.seqCounter⟩ s.co.queue } } : State).setPort p { s.port p with
                    inFlight := (s.port p).inFlight + 1
                    reply := some ⟨.accepted, [BitVec.ofNat 8 ((s.port p).outstanding + 1)]⟩ }) ∧
              (s.co.op = none → s.co.queue = [] →
                (∃ n, (s.line n).current = (s.amp d).carrying ∧ (s.line n).state = .connected ∧
                  (s.line n).selector ≠ .bus d) →
                t.co = { s.co with
                  seqCounter := s.co.seqCounter + 1
                  op := some ⟨.returnLines, d, (s.amp d).carrying, .manual,
                    some ⟨p, tag, (s.port p).session, .returnLines⟩, s.co.seqCounter,
                    some ((s.amp d).coverSeq.getD s.co.seqCounter), .moving⟩ } ∧
                t.amp d = { s.amp d with carrying := d } ∧ (∀ k, k ≠ d → t.amp k = s.amp k) ∧
                ∀ n, (s.line n).current = (s.amp d).carrying → (t.line n).current = d)))))

/-- DISABLE_AMP (R84): refused with EMERGENCY, NO_CHANGE and IN_USE in this order, IN_USE also for the standby of any operation
in flight, whatever has become of its state (DEDUCED, log entry 31); otherwise the amplifier is DISABLED, its
stamp moved on, its condition, debounce and samples reset, it leaves the confirm queue and none of its records stays active.
One that a standby covered becomes the current amplifier of every line on that standby, with a selector order for a CONNECTED one
alone (R4, where R84 speaks of DISABLED lines: DEDUCED, log entry 33), and frees the standby. That last part is said where the
orders end no move that is waited for. -/
def Obligations.DisableAmpRemovesAnAmplifierThatIsNotInUse : Prop :=
  ∀ (p : Port) (tag : Byte) (k : AmpNo) (s : State), s.takes .disableAmp p (ampPayload k) →
    (s.emergency = true → exec (.disableAmp p tag (ampPayload k)) s = .next (s.answer p ⟨.emergency, []⟩)) ∧
    (s.emergency = false →
      ((s.amp k).state = .disabled →
        exec (.disableAmp p tag (ampPayload k)) s = .next (s.answer p ⟨.noChange, []⟩)) ∧
      ((s.amp k).state ≠ .disabled → ∀ inUse : Bool, inUse = decide
          ((∃ n, (s.line n).cfg.enabled = true ∧ ((s.line n).cfg.home = k ∨ (s.line n).current = k)) ∨
            (s.amp k).state = .busy ∨ (∃ e ∈ s.co.queue, e.duty = k) ∨
            (s.co.op.any fun o => o.duty = k || o.standby = k) = true) →
        (inUse = true → exec (.disableAmp p tag (ampPayload k)) s = .next (s.answer p ⟨.inUse, []⟩)) ∧
        (inUse = false → ∃ t, exec (.disableAmp p tag (ampPayload k)) s = .next t ∧
          (t.port p).reply = some ⟨.ok, []⟩ ∧ t.store = s.store ∧
          ((s.amp k).coveringStandby = none ∨ (s.amp k).state ≠ .covered ∧ (s.amp k).state ≠ .relieved →
            t.amp k = { s.amp k with
              cfg := { (s.amp k).cfg with enabled := false }, state := .disabled, stamp := (s.amp k).stamp + 1
              condition := .normal, candidate := none, count := 0, lastAc := none, lastProt := none } ∧
            (∀ j, j ≠ k → t.amp j = s.amp j) ∧ t.lines = s.lines ∧ t.co = s.co ∧ t.mc = s.mc ∧ t.move = s.move ∧
            t.chan = { s.chan with confirm := s.chan.confirm.filter fun x => x ≠ .amp k } ∧
            (s.tableOk = true → ∀ key, key ∈ [FaultKey.ampFail k, .noCover k, .storeFault (.amp k)] →
              t.holdsActive key = false ∧ ∀ d ∈ t.faults.deferred, d.key ≠ key)) ∧
          ∀ x, (s.amp k).coveringStandby = some x → (s.amp k).state = .covered ∨ (s.amp k).state = .relieved →
            x ≠ k → s.co.queue = [] →
            (∀ l, s.move = some l → ∃ n ∈ l, (s.line n).current ≠ x ∨ (s.line n).state ≠ .connected) →
            t.amp k = { s.amp k with
              cfg := { (s.amp k).cfg with enabled := false }, state := .disabled, stamp := (s.amp k).stamp + 1
              condition := .normal, candidate := none, count := 0, lastAc := none, lastProt := none
              carrying := k, coveringStandby := none, coverSeq := none } ∧
            (t.amp x).state = .free ∧ (t.amp x).coveredAmp = none ∧
            (∀ n, ∀ l, l = ({ s.line n with
                current := if (s.line n).current = x then k else (s.line n).current } : Line) →
              t.line n = if (s.line n).current = x ∧ (s.line n).state = .connected then
                  { l.sentTo (.bus k) with
                    learn := if s.learnsOn n ∧ l.selector ≠ .bus k then none else l.learn }
                else l))))

/-- CONFIGURE_AMP (R70): refused with EMERGENCY, with WRONG_STATE on an amplifier that is not DISABLED, and with IN_USE where
the role would change while a line names the amplifier or another duty amplifier is carried by it; otherwise the fields are
written as carried, brought into their ranges, and the reply says whether a value was clamped. -/
def Obligations.ConfigureAmpWritesTheClampedFields : Prop :=
  ∀ (p : Port) (tag r : Byte) (a b rc cc : Byte) (k : AmpNo) (s : State),
    s.takes .configureAmp p (ampPayload k ++ [r, a, b, rc, cc]) →
    ∀ c, c = Instr.configureAmp p tag (ampPayload k ++ [r, a, b, rc, cc]) →
    (s.emergency = true → exec c s = .next (s.answer p ⟨.emergency, []⟩)) ∧
    (s.emergency = false → (s.amp k).state ≠ .disabled → exec c s = .next (s.answer p ⟨.wrongState, []⟩)) ∧
    (s.emergency = false → (s.amp k).state = .disabled → ∀ asked : AmpConfig,
      asked = ⟨if r = 0 then .duty else .standby, a.toNat * 256 + b.toNat, rc.toNat, cc.toNat, (s.amp k).cfg.enabled⟩ →
      ∀ named : Bool, named = decide ((∃ n, (s.line n).cfg.home = k ∨ (s.line n).current = k) ∨
        ∃ d : AmpNo, d ≠ k ∧ (s.amp d).cfg.role = .duty ∧ (s.amp d).carrying = k) →
      (asked.role ≠ (s.amp k).cfg.role → named = true → exec c s = .next (s.answer p ⟨.inUse, []⟩)) ∧
      (asked.role = (s.amp k).cfg.role ∨ named = false → exec c s = .next
        ((s.setAmp k { s.amp k with cfg := ⟨asked.role, max 1 (min 4095 asked.amin), max 1 (min 15 asked.raiseCount),
          max 1 (min 15 asked.clearCount), asked.enabled⟩ }).answer p
            ⟨if ampConfigOk asked then .ok else .clamped, []⟩)))

/-! ### Mode control, emergency, supply, resets and the store (09, 10) -/

/-- START (R150, R152): in STANDBY the mode becomes SETTLING with count 0, Zf is forgotten on every CONNECTED line, no timer
stays frozen, the due probes start unless emergency is in force, and a round is in progress; NO_CHANGE where supervision
runs, WRONG_STATE in STOPPING. -/
def Obligations.StartEntersSettling : Prop :=
  ∀ (p : Port) (tag : Byte) (s : State), s.takes .start p [] →
    (s.runs = true → exec (.start p tag []) s = .next (s.answer p ⟨.noChange, []⟩)) ∧
    (s.mc.mode = .stopping → exec (.start p tag []) s = .next (s.answer p ⟨.wrongState, []⟩)) ∧
    (s.mc.mode = .standby → ∃ t, exec (.start p tag []) s = .next t ∧
      (t.port p).reply = some ⟨.ok, []⟩ ∧ t.mc = { s.mc with mode := .settling, settleCount := 0 } ∧
      t.chan.round.isSome ∧ t.chan.roundNumber = s.chan.roundNumber ∧ t.store = s.store ∧
      ∀ n,
        ((s.line n).state = .connected → (s.line n).probeDue = false →
          (t.line n).zf = none ∧ (t.line n).deviation = none ∧ (t.line n).rawZ = (s.line n).rawZ ∧
          (t.line n).confirmed = (s.line n).confirmed ∧ (t.line n).count = (s.line n).count) ∧
        (s.emergency = false → (s.line n).probeDue = true →
          (t.line n).state = .probing ∧ (t.line n).probeDue = false ∧ (t.line n).passCount = 0 ∧
          (t.line n).waiting = (s.line n).waiting) ∧
        (s.emergency = true ∨ (s.line n).probeDue = false →
          (t.line n).state = (s.line n).state ∧ (t.line n).probeDue = (s.line n).probeDue ∧
          (∀ ms, (s.line n).timer = .frozen ms → (t.line n).timer = .running ms) ∧
          (∀ ms, (s.line n).timer = .running ms → (t.line n).timer = .running ms)))

/-- STOP (R153, R154): refused in the order EMERGENCY, NO_CHANGE, ALARM_PENDING, changing nothing; otherwise the round and
the confirm queue are let go, the learn job ends LEARN_ABORTED (R58), and the part rests in STANDBY at once where neither a
measurement nor an operation is in flight, and in STOPPING while a measurement is. Every running timer becomes frozen (R9). A
PROBING line becomes ISOLATED PROTECTIVE with its selector to OPEN and leaves the verify queue, its waiting RESTORE completes
RESTORE_ABORTED, and its timer starts frozen with the full delay where auto retry is yes and the retry count is below the
limit (R20). LEARN_ABORTED comes first and the RESTORE_ABORTED completions follow in line number order, an order that no rule
gives (DEDUCED, log entry 28). Every port with an eligible class has its latch set (R140). The completions, the fault table and the latches are
said where no move of lines ends with the probes. -/
def Obligations.StopEndsTheWorkThatIsNotProtective : Prop :=
  ∀ (p : Port) (tag : Byte) (s : State), s.takes .stop p [] →
    (s.emergency = true → exec (.stop p tag []) s = .next (s.answer p ⟨.emergency, []⟩)) ∧
    (s.emergency = false →
      (s.runs = false → exec (.stop p tag []) s = .next (s.answer p ⟨.noChange, []⟩)) ∧
      (s.runs = true → ∀ alarm : Bool, alarm = decide
          ((∃ r ∈ s.faults.records, r.key.cls ≤ 2 ∧ (r.lifecycle = .activeUnack ∨ r.lifecycle = .clearedUnack)) ∨
            ∃ d ∈ s.faults.deferred, d.key.cls ≤ 2) →
        (alarm = true → exec (.stop p tag []) s = .next (s.answer p ⟨.alarmPending, []⟩)) ∧
        (alarm = false → ∃ t, exec (.stop p tag []) s = .next t ∧
          (t.port p).reply = some ⟨.ok, []⟩ ∧ t.chan.round = none ∧ t.chan.confirm = [] ∧ t.chan.job = none ∧
          t.mc = { s.mc with mode := t.mc.mode } ∧ t.store = s.store ∧
          (t.mc.mode = .stopping ∨ t.mc.mode = .standby) ∧
          (s.chan.inFlight.isSome → t.mc.mode = .stopping) ∧
          (s.chan.inFlight = none → s.co.op = none → s.move ≠ some [] → t.mc.mode = .standby) ∧
          (∀ q, t.anyEligible q = true → (t.port q).latch = true) ∧
          ((∀ l, s.move = some l → ∃ n ∈ l, (s.line n).state ≠ .probing) → t.faults = s.faults ∧
            ∀ v, v = (allLines.filter fun n => (s.line n).state = .probing).foldl
                (fun u n => completeIfAny (s.line n).waiting .restoreAborted u)
                (completeIfAny (s.chan.job.map (·.requester)) .learnAborted s) →
              ∀ q, (t.port q).completions = (v.port q).completions ∧ (t.port q).inFlight = (v.port q).inFlight ∧
                (t.port q).latch = ((s.port q).latch || s.anyEligible q)) ∧
          ∀ n,
            ((s.line n).state = .probing →
              ({ s.line n with
                state := .isolated, cause := .protective, waiting := none, passCount := 0 } : Line).keptIn (t.line n) ∧
              (t.line n).selector = .off ∧ .line n ∉ t.chan.verify ∧
              (t.line n).timer = ((s.line n).timerAfterShort false).freeze) ∧
            ((s.line n).state ≠ .probing →
              (s.line n).keptIn (t.line n) ∧ (t.line n).timer = (s.line n).timer.freeze) ∧
            (∀ ms, (t.line n).timer ≠ .running ms))))

/-- The sources of emergency (R156, R158): each port sets and clears its own flag, with NO_CHANGE where it stands so
already, and the EMERG input follows its level; at its beginning nothing else changes, nor while another source stays in
force or the mode does not run; at its end in SETTLING or ACTIVE the probe of every due line starts and no other line
changes its state. -/
def Obligations.EmergencyFollowsItsThreeSources : Prop :=
  (∀ (p : Port) (tag : Byte) (s : State), s.takes .emergencyOn p [] → ∀ set, set = (if p = .a then s.mc.flagA else s.mc.flagB) →
    (set = true → exec (.emergencyOn p tag []) s = .next (s.answer p ⟨.noChange, []⟩)) ∧
    (set = false → exec (.emergencyOn p tag []) s = .next (({ s with mc := { s.mc with
      flagA := s.mc.flagA || p = .a, flagB := s.mc.flagB || p = .b } } : State).answer p ⟨.ok, []⟩))) ∧
  (∀ s : State, s.mc.resetInForce = none →
    exec .emergAsserted s = .next { s with mc := { s.mc with emergInput := true } }) ∧
  (∀ (p : Port) (tag : Byte) (s : State), s.takes .emergencyOff p [] → (if p = .a then s.mc.flagA else s.mc.flagB) = false →
    exec (.emergencyOff p tag []) s = .next (s.answer p ⟨.noChange, []⟩)) ∧
  (∀ (p : Port) (tag : Byte) (s : State), s.takes .emergencyOff p [] → (if p = .a then s.mc.flagA else s.mc.flagB) = true →
    ∃ t, exec (.emergencyOff p tag []) s = .next t ∧ (t.port p).reply = some ⟨.ok, []⟩ ∧ ∀ u : State,
      u = { s with mc := { s.mc with flagA := s.mc.flagA && p ≠ .a, flagB := s.mc.flagB && p ≠ .b } } →
        (s.emergencyStands u → t = u.answer p ⟨.ok, []⟩) ∧ s.emergencyLeaves u t) ∧
  ∀ s : State, s.mc.resetInForce = none → ∃ t, exec .emergReleased s = .next t ∧ ∀ u : State,
    u = { s with mc := { s.mc with emergInput := false } } →
      (s.emergencyStands u → t = u) ∧ s.emergencyLeaves u t

/-- The supply monitor (R159): the fall to LOW raises LOW_SUPPLY and the rise to NORMAL clears it, each with no snapshot;
a crossing that finds the state there already changes nothing (the model's choice, log entry 6). -/
def Obligations.SupplyStateRaisesAndClearsLowSupply : Prop :=
  ∀ s : State, s.mc.resetInForce = none →
    (s.mc.supply = .normal →
      exec .supplyFalls s = .next (raise .lowSupply none { s with mc := { s.mc with supply := .low } }) ∧
      exec .supplyRises s = .next s) ∧
    (s.mc.supply = .low →
      exec .supplyRises s = .next (clear .lowSupply none { s with mc := { s.mc with supply := .normal } }) ∧
      exec .supplyFalls s = .next s)

/-- The three kinds of reset act alike on every block (R160): every line and amplifier, the channel, the changeover unit, the
table and the ports are as after reset, the mode is LOADING with no flag set and no time run, and the area of a record whose
write was cut off is marked as holding none that passes its checks (R170). At its end the cause is POWER_ON if a power-on was among the resets in force, and
otherwise the last kind; the EMERG level and the supply state are those sampled, with LOW_SUPPLY raised where it is low. What stands during a reset, the working configuration and the record
conditions before they are judged, and an area that is not known are the model's choices (log entries 2 to 5), and so is that a
reset leaves no report of a timed-out write that may still come (log entry 32). -/
def Obligations.ResetsReturnEveryBlockToItsStart : Prop :=
  (∀ (c : Instr) (k : ResetKind) (s : State),
    (c = .powerOn ∧ k = .powerOn) ∨ (c = .brownOut ∧ k = .brownOut) ∨ (c = .resetPin ∧ k = .resetPin) →
    ∃ t, exec c s = .next t ∧ (∀ n, t.line n = resetLine n) ∧ (∀ k, t.amp k = resetAmp k) ∧
      t.chan = State.reset.chan ∧ t.co = State.reset.co ∧ t.move = none ∧ t.faults = State.reset.faults ∧
      (∀ p, t.port p = resetPortState) ∧ t.pending = s.pending ∧
      t.mc = { State.reset.mc with
        emergInput := s.mc.emergInput, supply := s.mc.supply, cause := s.mc.cause
        resetInForce := some ⟨k = .powerOn || s.mc.resetInForce.any (·.belowPowerOn), k⟩ } ∧
      t.store = { State.reset.store with areas := t.store.areas } ∧
      ∀ r : RecordNo, t.store.areas.get r =
        if s.store.write.any (·.record = r) then .cutOff else s.store.areas.get r) ∧
  ∀ (low emerg : Bool) (s : State) (r : ResetInForce), s.mc.resetInForce = some r →
    ∀ u, u = { s with mc := { s.mc with
        resetInForce := none, emergInput := emerg, supply := if low then .low else .normal
        cause := if r.belowPowerOn then .powerOn else r.last } } →
      exec (.resetEnd low emerg) s = .next (if low then raise .lowSupply none u else u)

/-- CONFIGURE_SYSTEM is refused during emergency and otherwise writes the four settings, brought into their ranges, and says
whether one was clamped; nothing else changes (R180). STORE is refused in the order BAD_SUBJECT, BUSY, LOW_SUPPLY and
otherwise holds the record's bytes as they stand, the requester and 25 ms, with the record WRITING (R167). -/
def Obligations.SystemSettingsAndStoreRequests : Prop :=
  (∀ (p : Port) (tag a b c d : Byte) (s : State), s.takes .configureSystem p [a, b, c, d] →
    (s.emergency = true → exec (.configureSystem p tag [a, b, c, d]) s = .next (s.answer p ⟨.emergency, []⟩)) ∧
    (s.emergency = false → exec (.configureSystem p tag [a, b, c, d]) s = .next
      (({ s with mc := { s.mc with sys := ⟨max 1 (min 16 a.toNat), max 1 b.toNat, max 1 (min 15 c.toNat), d != 0⟩ } } :
        State).answer p ⟨if 1 ≤ a.toNat ∧ a.toNat ≤ 16 ∧ 1 ≤ b.toNat ∧ 1 ≤ c.toNat ∧ c.toNat ≤ 15 then .ok
          else .clamped, []⟩))) ∧
  ∀ (p : Port) (tag x : Byte) (s : State), s.takes .store p [x] →
    (23 ≤ x.toNat → exec (.store p tag [x]) s = .next (s.answer p ⟨.badSubject, []⟩)) ∧
    ∀ k : RecordNo, k.val = x.toNat →
      (s.store.write.isSome → exec (.store p tag [x]) s = .next (s.answer p ⟨.busy, []⟩)) ∧
      (s.store.write = none → s.mc.supply = .low →
        exec (.store p tag [x]) s = .next (s.answer p ⟨.lowSupply, []⟩)) ∧
      (s.store.write = none → s.mc.supply = .normal → ∃ t, exec (.store p tag [x]) s = .next t ∧
        t.store = { s.store with
          write := some ⟨k, ⟨p, tag, (s.port p).session, .store⟩, buildRecord k s, 25⟩
          status := t.store.status } ∧
        (∀ r : RecordNo, t.recordStatus r =
          if r = k then ⟨.writing, (s.recordStatus k).cause⟩ else s.recordStatus r) ∧
        t = ({ s with store := t.store } : State).setPort p { s.port p with
          inFlight := (s.port p).inFlight + 1
          reply := some ⟨.accepted, [BitVec.ofNat 8 ((s.port p).outstanding + 1)]⟩ })

/-- The end of a write (R168): its completion makes the record VALID with the bytes in its area, clears STORE_FAULT and hands
STORE_DONE on; its timeout makes it WRITE_FAILED with an area that is no longer known, raises STORE_FAULT unless the subject
is DISABLED, and hands STORE_TIMEOUT on; with no write in flight neither is an event. While the report of a write that timed
out may still come, a report is that late one, which is no event, or the end of the write in flight, as a free value says, for
every value of it (DESIGN CHOICE, log entry 32). An area that is not known, and the timeout that is no event, are the model's
choices too (log entries 5 and 6). -/
def Obligations.WriteEndsByCompletionOrTimeout : Prop :=
  ∀ s : State, s.mc.resetInForce = none →
    ∀ late, late = { s with store := { s.store with reportsDue := s.store.reportsDue - 1 } } →
    (s.store.write = none → exec .writeCompletion s = .next late ∧ exec .writeTimeout s = .next s) ∧
    ∀ w, s.store.write = some w →
      (∀ u, u = { s with store := { s.store with
          write := none
          areas := s.store.areas.set w.record.val (.known w.bytes) w.record.isLt
          status := s.store.status.set w.record.val ⟨.valid, (s.recordStatus w.record).cause⟩ w.record.isLt } } →
        (s.store.reportsDue = 0 → exec .writeCompletion s =
          .next (complete w.requester .storeDone (clear (.storeFault (subjectOf w.record)) none u))) ∧
        (0 < s.store.reportsDue → exec .writeCompletion s = .next { late with freeUses := s.freeUses + 1 } ∨
          exec .writeCompletion s = .next (complete w.requester .storeDone
            (clear (.storeFault (subjectOf w.record)) none { u with freeUses := s.freeUses + 1 })))) ∧
      ∀ u, u = { s with store := { s.store with
          write := none
          reportsDue := s.store.reportsDue + 1
          areas := s.store.areas.set w.record.val .unknown w.record.isLt
          status := s.store.status.set w.record.val ⟨.writeFailed, (s.recordStatus w.record).cause⟩ w.record.isLt } } →
        exec .writeTimeout s = .next (complete w.requester .storeTimeout
          (if (∃ n, subjectOf w.record = .line n ∧ (s.line n).state = .disabled) ∨
              (∃ k, subjectOf w.record = .amp k ∧ (s.amp k).state = .disabled) then u
            else raise (.storeFault (subjectOf w.record)) none u))

/-- The load judges its records one after another (R165, R166). RECORD_READ and UNREADABLE complete: an answered read of a
record before the last sets the working configuration, VALID, where it is accepted and the factory defaults, DEFAULTED, with
the cause found where it is not, an unanswered one UNREADABLE, and the next read begins. The system record ends LOADING: the
raises of the load are sent, enabled amplifiers become HEALTHY or FREE by their roles (R72) with a new stamp (R73), each line
has its home or the lowest-numbered duty amplifier as its current one and is CONNECTED to it where it ends enabled (R3), and
the mode is SETTLING or STANDBY by the autostart it ends with (R149). An area whose write a reset has cut off answers no
record that passes (R170); which bytes an area that is not known can answer, and that any other answer is no event, are the
model's choices (log entries 5 and 6). The raises, the amplifiers and the lines are said
of an empty changeover queue, which LOADING has. -/
def Obligations.LoadJudgesRecordsAndEndsLoading : Prop :=
  ∀ (k : RecordNo) (b : List Byte) (s : State), s.mc.resetInForce = none → s.mc.mode = .loading →
    s.store.judged = k.val →
    (∃ t, exec .unreadable s = .next t ∧ s.loadJudges k b .unreadable t ∧ t.store.areas = s.store.areas) ∧
    (s.store.areas.get k = .known b ∨ (s.store.areas.get k = .unknown ∧ b.length = (subjectOf k).recordLen) ∨
        (s.store.areas.get k = .cutOff ∧ b.length = (subjectOf k).recordLen ∧ judgeRecord k b ≠ .noCause) →
      ∃ t, exec (.recordRead b) s = .next t ∧ s.loadJudges k b (judgeRecord k b) t ∧
        t.store.areas = s.store.areas.set k.val (.known b) k.isLt) ∧
    (s.store.areas.get k = .cutOff → judgeRecord k b = .noCause → exec (.recordRead b) s = .next s)

/-! ### The measurement channel and what its results do (02 to 06) -/

/-- An arrival (R32 to R35): nothing while a measurement is in flight, in LOADING or in STANDBY. Otherwise the first
entry of the verify queue that can be granted is granted, with the epoch or stamp copied; entries before it that
cannot be granted keep their places or, where their subject no longer qualifies, are removed (R34). With none there,
the classes are served from the one after the last granted: the first entry of the confirm queue that can be
granted, found in the same way; the next learn sample; the first eligible slot from the current position, with the
slots before it skipped, while a slot whose line is moving is waited for (R29). A slot is judged by its subject as
it is when reached, also where a line or an amplifier has left and come back within the round (R29 followed against
R18, R60, R68 and R83: DEDUCED, log entry 34). In STOPPING VERIFY alone is served, and with nothing granted and no
operation the part goes to STANDBY, which freezes every running timer (R9) and sets the latch of each port with an
eligible class (R140). The end of a round (R30, R31): the number goes up by one, mode control counts the round, the
latches are set for eligible work, and in SETTLING and ACTIVE the next round starts with the slots of R28, none of
them taken. In SETTLING the settle count goes up, stopping at 15 (R151); where it reaches the settle rounds the mode
becomes ACTIVE and the held raises are sent, the classes and BLIND line by line and then the leaks (R51, R67; with
an absent Zf where the line has none by then, and BLIND by the count and the limit as they stand then, whenever the
limit was lowered: DEDUCED, log entries 19 and 35), said where no grant follows. The completion of the last slot,
stale and masked ones included, ends the round, and so does a search that finds no slot left that is eligible; the
raises reach the table before the latches are set. -/
def Obligations.ArbiterServesInOrderAndRoundsFollow : Prop :=
  (∀ s : State,
    (s.chan.inFlight.isSome ∨ s.mc.mode = .loading ∨ s.mc.mode = .standby → arrival s = s) ∧
    (s.chan.inFlight = none → s.runs = true ∨ s.mc.mode = .stopping → ∀ pre x rest, s.chan.verify = pre ++ x :: rest →
      (∀ y ∈ pre, s.grantsVerify y = false) → s.grantsVerify x = true →
      arrival s = { s with chan := { s.chan with
        verify := pre.filter s.keptInVerify ++ rest, inFlight := some (s.granted x.target .verify none) } }) ∧
    ((∀ y ∈ s.chan.verify, s.grantsVerify y = false) → s.chan.inFlight = none →
      ∀ kept, kept = s.chan.verify.filter s.keptInVerify →
      (s.mc.mode = .stopping →
        (s.co.op.isSome → arrival s = { s with chan := { s.chan with verify := kept } }) ∧
        (s.co.op = none → ∀ t, t = arrival s →
          t = { s with
            chan := { s.chan with verify := kept }, mc := { s.mc with mode := .standby }
            lines := t.lines, ports := t.ports } ∧
          (∀ n, t.line n = { s.line n with timer := (s.line n).timer.freeze }) ∧
          ∀ q, t.port q = { s.port q with latch := (s.port q).latch || s.anyEligible q })) ∧
      (s.runs = true →
        (∀ pre x rest, s.chan.confirm = pre ++ x :: rest → (∀ y ∈ pre, s.grantsConfirm y = false) →
          s.grantsConfirm x = true →
          s.chan.rotation = .scan ∨ (s.chan.rotation = .learn ∧ s.scanWaits = true) ∨
            (s.chan.rotation = .confirm ∧ s.grantsLearn = false ∧ s.scanWaits = true) →
          arrival s = { s with chan := { s.chan with
            verify := kept, confirm := pre.filter s.keptInConfirm ++ rest, rotation := .confirm
            inFlight := some (s.granted x.target .confirm none) } }) ∧
        (∀ j, s.chan.job = some j → s.grantsLearn = true →
          s.chan.rotation = .confirm ∨ ((s.chan.rotation = .scan ∨ s.scanWaits = true) ∧
            ∀ y ∈ s.chan.confirm, s.grantsConfirm y = false) →
          arrival s = { s with chan := { s.chan with
            verify := kept
            confirm := if s.chan.rotation = .confirm then s.chan.confirm else s.chan.confirm.filter s.keptInConfirm
            job := some { j with granted := j.granted + 1 }, rotation := .learn
            inFlight := some (s.granted (.line j.line) .learn none) } }) ∧
        (∀ r, s.chan.round = some r → ∀ pre x rest, r.slots.drop r.pos = pre ++ x :: rest →
          (∀ y ∈ pre, s.slotKept y = false) → s.slotKept x = true →
          s.chan.rotation = .learn ∨ (s.chan.rotation = .confirm ∧ s.grantsLearn = false) ∨
            (s.chan.rotation = .scan ∧ s.grantsLearn = false ∧ ∀ y ∈ s.chan.confirm, s.grantsConfirm y = false) →
          (s.slotAtRest x = true → arrival s = { s with chan := { s.chan with
            verify := kept
            confirm := if s.chan.rotation = .scan then s.chan.confirm.filter s.keptInConfirm else s.chan.confirm
            rotation := .scan, round := some { r with pos := r.pos + pre.length + 1 }
            inFlight := some (s.granted x .scan (some (r.pos + pre.length))) } }) ∧
          (s.slotAtRest x = false → s.chan.confirm = [] → s.chan.job = none → arrival s = { s with chan := { s.chan with
            verify := kept, round := some { r with pos := r.pos + pre.length } } })) ∧
        (s.scanWaits = true → s.grantsLearn = false → (∀ y ∈ s.chan.confirm, s.grantsConfirm y = false) →
          arrival s = { s with chan := { s.chan with
            verify := kept, confirm := s.chan.confirm.filter s.keptInConfirm } })))) ∧
  (∀ s : State, ∀ number, number = s.chan.roundNumber + 1 → ∀ t, t = endRound s →
    t.chan.roundNumber = number ∧
    (s.mc.mode ≠ .settling ∨ min 15 (s.mc.settleCount + 1) < s.mc.sys.settleRounds ∨ s.co.op.isSome ∨
        (∀ e ∈ s.co.queue, s.passesOver e = true) → t.chan.inFlight = s.chan.inFlight) ∧
    (s.runs = true → t.chan.round = some ⟨t.slotsOf number, 0, 250⟩ ∧ t.runs = true) ∧
    (s.runs = false → t.chan.round = none ∧ t.mc = s.mc) ∧
    (∀ p, t.anyEligible p = true → (t.port p).latch = true) ∧
    (s.mc.mode ≠ .settling → t = { s with chan := t.chan, ports := t.ports } ∧
      ∀ p, t.port p = { s.port p with latch := (s.port p).latch || s.anyEligible p }) ∧
    (s.mc.mode = .settling → ∀ c, c = min 15 (s.mc.settleCount + 1) →
      (c < s.mc.sys.settleRounds → t = { s with chan := t.chan, ports := t.ports, mc := { s.mc with settleCount := c } } ∧
        ∀ p, t.port p = { s.port p with latch := (s.port p).latch || s.anyEligible p }) ∧
      (s.mc.sys.settleRounds ≤ c → t.mc = { s.mc with mode := .active, settleCount := c } ∧
        (s.co.op.isSome ∨ (∀ e ∈ s.co.queue, s.passesOver e = true) →
          t = { s with faults := t.faults, chan := t.chan, ports := t.ports, mc := t.mc } ∧
          t.faults = (raiseAll s.heldFaults { s with chan := { s.chan with roundNumber := number } }).faults)))) ∧
  (∀ s : State, s.chan.inFlight = none → s.runs = true → (∀ y ∈ s.chan.verify, s.grantsVerify y = false) →
    s.chan.rotation = .learn ∨ (s.chan.rotation = .confirm ∧ s.grantsLearn = false) →
    ∀ round, s.chan.round = some round → round.slots ≠ [] → (∀ y ∈ round.slots.drop round.pos, s.slotKept y = false) →
    (arrival s).chan.roundNumber = s.chan.roundNumber + 1 ∧ (arrival s).chan.round.isSome) ∧
  ∀ (r : Reading) (s : State) (m : Measurement), s.chan.inFlight = some m → s.mc.resetInForce = none → m.cls = .scan →
    r.fits m.target = true → s.runs = true →
    ∀ round, s.chan.round = some round → round.slots ≠ [] → m.slot = some (round.slots.length - 1) →
    ∃ t, exec (.measurementCompletion r) s = .next t ∧ t.chan.roundNumber = s.chan.roundNumber + 1 ∧ t.chan.round.isSome

/-- A LINE result outside probes and learning (R36, R37, R41 to R48, R52, R53, R8): a stale one, or one for a line that is no
longer CONNECTED (DEDUCED, log entry 21), judges nothing; a masked one steps the masked count alone; any other gives raw Z, Zf and the deviation,
ends the masked count and steps the debounce, and a confirmed SHORT isolates the line for protection. In SETTLING and ACTIVE a
CONNECTED line whose debounce count is then above 0, a stale result's included, is in the confirm queue or is granted from it
(R26, R37, R49); a count of 0 places nothing, and a confirmed SHORT withdraws the line. A confirmed SHORT starts the retry
timer with the full delay where auto retry is yes and the retry count is below the limit, running in SETTLING and ACTIVE and
frozen otherwise, and no other reading touches a timer (R8, R9). -/
def Obligations.LineReadingsFeedTheFilterAndTheDebounce : Prop :=
  ∀ (n : LineNo) (vc ic : Code) (masked : Bool) (s : State) (m : Measurement), s.chan.inFlight = some m →
    s.mc.resetInForce = none → m.target = .line n → m.cls = .scan ∨ m.cls = .confirm →
    ∃ t, exec (.measurementCompletion (.line vc ic masked)) s = .next t ∧ t.store = s.store ∧
      (∀ k, k ≠ n → (s.line k).keptIn (t.line k) ∧ (t.line k).timer.restsAs (s.line k).timer s.runs = true) ∧
      (m.epochCopy ≠ some (s.line n).epoch ∨ (s.line n).state ≠ .connected →
        (s.line n).keptIn (t.line n) ∧ (t.line n).timer.restsAs (s.line n).timer s.runs = true) ∧
      (m.epochCopy ≠ some (s.line n).epoch →
        (s.runs = true → (s.line n).state = .connected → 0 < (s.line n).count → t.confirmFollows (.line n) = true) ∧
        ((s.line n).count = 0 → .line n ∉ s.chan.confirm → t.confirmFollows (.line n) = false)) ∧
      (m.epochCopy = some (s.line n).epoch → (s.line n).state = .connected →
        (masked = true →
          ({ s.line n with masked := min 255 ((s.line n).masked + 1) } : Line).keptIn (t.line n) ∧
          (t.line n).timer.restsAs (s.line n).timer s.runs = true ∧
          (s.runs = true → 0 < (s.line n).count → t.confirmFollows (.line n) = true) ∧
          ((s.line n).count = 0 → .line n ∉ s.chan.confirm → t.confirmFollows (.line n) = false)) ∧
        (masked = false → ∀ z, z = rawImpedance vc ic (s.line n).cfg.gain →
          ∀ zf, zf = filterZ (s.line n).zf (s.line n).cfg.shift z →
          ∀ dev, dev = deviationOf (s.line n).cfg.zref (some zf) →
          ∀ d, d = debounce (s.line n).confirmed (s.line n).candidate (s.line n).count (requiredCount (s.line n).cfg)
            (instantClass (s.line n).cfg (s.line n).confirmed zf dev) →
          ({ s.line n with
            rawZ := some z, zf := some zf, deviation := dev, masked := 0
            confirmed := d.confirmed, candidate := d.candidate, count := d.count
            state := if d.changed ∧ d.confirmed = .short then .isolated else .connected
            cause := if d.changed ∧ d.confirmed = .short then .protective else (s.line n).cause } : Line).keptIn (t.line n) ∧
          (t.line n).timer.restsAs (if d.changed ∧ d.confirmed = .short then (s.line n).timerAfterShort s.runs
            else (s.line n).timer) s.runs = true ∧
          (s.runs = true → 0 < d.count → t.confirmFollows (.line n) = true) ∧
          (d.count = 0 → .line n ∉ s.chan.confirm ∨ (d.changed = true ∧ d.confirmed = .short) →
            t.confirmFollows (.line n) = false)))

/-- Probe readings (R12, R13, R14, R37, R38): a stale one judges nothing; a masked one steps the masked count alone; one
at or below the short floor fails the probe, which counts a retry and locks the line at its limit with its timer
idle, and otherwise starts the retry timer with the full delay where auto retry is yes, running in SETTLING and
ACTIVE and frozen otherwise (R9); any other passes, and the pass that reaches the clear count reconnects the line
with its confirmed class NORMAL. After a stale one, a masked one and a pass below the clear count the line is in the
verify queue or is granted from it. The waiting RESTORE ends with the probe, RESTORED or RESTORE_FAILED (R16); its
completion is said of a line with no learn job, which needs a CONNECTED one. What readings on a line send to the
fault table (R8, R13, R14, R50, R51, R53, R63, R66, R67), for a move that is not ended by them. A classification
reading (R41) that confirms a class sends the clear of the old and the raise of the new one, with Zf and deviation
as they are then, and after masked readings clears BLIND behind them (that order: DEDUCED, log entry 28); a masked
one raises BLIND at the blind limit. A probe that fails and one that succeeds send the change to SHORT and to
NORMAL. A confirmed leak raises EARTH_LEAK and its end clears it, with the leakage code and the estimate, the line
and its earth check judged at delivery (DEDUCED, log entry 36). The raises of OPEN, LOW, HIGH, BLIND and EARTH_LEAK
are held in SETTLING. A stale reading and one that confirms nothing send nothing of these. -/
def Obligations.ProbesAreDecidedAndReadingsSendTheirFaults : Prop :=
  (∀ (n : LineNo) (vc ic : Code) (masked : Bool) (s : State) (m : Measurement), s.chan.inFlight = some m →
    s.mc.resetInForce = none → m.target = .line n → m.cls = .verify → (s.line n).state = .probing →
    ∃ t, exec (.measurementCompletion (.line vc ic masked)) s = .next t ∧ t.store = s.store ∧
      (∀ k, k ≠ n → (s.line k).keptIn (t.line k) ∧ (t.line k).timer.restsAs (s.line k).timer s.runs = true) ∧
      (m.epochCopy ≠ some (s.line n).epoch → (s.line n).keptIn (t.line n) ∧
        (t.line n).timer.restsAs (s.line n).timer s.runs = true ∧ t.verifyFollows (.line n) = true) ∧
      (m.epochCopy = some (s.line n).epoch → masked = true →
        ({ s.line n with masked := min 255 ((s.line n).masked + 1) } : Line).keptIn (t.line n) ∧
        (t.line n).timer.restsAs (s.line n).timer s.runs = true ∧ t.verifyFollows (.line n) = true) ∧
      (m.epochCopy = some (s.line n).epoch → masked = false → ∀ z, z = rawImpedance vc ic (s.line n).cfg.gain →
        ∀ l, l = ({ s.line n with
          rawZ := some z, zf := some (filterZ (s.line n).zf (s.line n).cfg.shift z), masked := 0
          deviation := deviationOf (s.line n).cfg.zref (some (filterZ (s.line n).zf (s.line n).cfg.shift z)) } : Line) →
        (z ≤ l.cfg.shortFloor →
          ({ l with
            state := if l.cfg.retryLimit ≤ l.retryCount + 1 then .locked else .isolated
            cause := if l.cfg.retryLimit ≤ l.retryCount + 1 then .lockout else .protective
            retryCount := l.retryCount + 1, passCount := 0, confirmed := .short, candidate := none, count := 0
            waiting := none } : Line).keptIn (t.line n) ∧
          (t.line n).timer.restsAs (if l.cfg.retryLimit ≤ l.retryCount + 1 then .idle
            else ({ l with retryCount := l.retryCount + 1 } : Line).timerAfterShort s.runs) s.runs = true) ∧
        (l.cfg.shortFloor < z → l.passCount + 1 < l.cfg.clearCount →
          ({ l with passCount := l.passCount + 1 } : Line).keptIn (t.line n) ∧
          (t.line n).timer.restsAs (s.line n).timer s.runs = true ∧ t.verifyFollows (.line n) = true) ∧
        (l.cfg.shortFloor < z → l.cfg.clearCount ≤ l.passCount + 1 →
          ({ l with
            state := .connected, cause := .noCause, retryCount := 0, passCount := 0, confirmed := .normal
            candidate := none, count := 0, waiting := none } : Line).keptIn (t.line n) ∧
          (t.line n).timer.restsAs (s.line n).timer s.runs = true) ∧
        (∀ w, (s.line n).waiting = some w → w.session = (s.port w.port).session → 0 < (s.port w.port).inFlight →
          s.mc.mode = .active → s.moveOutlasts n = true → s.learnsOn n = false →
          (l.cfg.shortFloor < z → l.cfg.clearCount ≤ l.passCount + 1 →
            (t.port w.port).completions = (s.port w.port).completions ++ [⟨w.tag, w.request, .restored⟩] ∧
            (t.port w.port).inFlight = (s.port w.port).inFlight - 1) ∧
          (z ≤ l.cfg.shortFloor →
            (t.port w.port).completions = (s.port w.port).completions ++ [⟨w.tag, w.request, .restoreFailed⟩] ∧
            (t.port w.port).inFlight = (s.port w.port).inFlight - 1)))) ∧
  (∀ (n : LineNo) (vc ic : Code) (masked : Bool) (s : State) (m : Measurement), s.chan.inFlight = some m →
    s.mc.resetInForce = none → m.target = .line n → s.moveOutlasts n = true →
    ∃ t, exec (.measurementCompletion (.line vc ic masked)) s = .next t ∧ t.store = s.store ∧
      (s.mc.mode ≠ .settling ∨ t.mc.mode = .settling →
        (m.epochCopy ≠ some (s.line n).epoch → t.faults = s.faults) ∧
        (m.epochCopy = some (s.line n).epoch → ∀ z, z = rawImpedance vc ic (s.line n).cfg.gain →
          ∀ zf, zf = filterZ (s.line n).zf (s.line n).cfg.shift z →
          ∀ dev, dev = deviationOf (s.line n).cfg.zref (some zf) → ∀ snap, snap = some (Snapshot.impedance (some zf) dev) →
          (m.cls = .scan ∨ m.cls = .confirm → (s.line n).state = .connected →
            (masked = true → t.faults = (blindAfter n true s).faults) ∧
            (masked = false → ∀ d, d = debounce (s.line n).confirmed (s.line n).candidate (s.line n).count
                (requiredCount (s.line n).cfg) (instantClass (s.line n).cfg (s.line n).confirmed zf dev) →
              (d.changed = false → t.faults = (blindAfter n false s).faults) ∧
              (d.changed = true → t.faults =
                (blindAfter n false (classChange n (s.line n).confirmed d.confirmed snap s)).faults))) ∧
          (m.cls = .verify → (s.line n).state = .probing →
            (masked = true → t.faults = (blindAfter n true s).faults) ∧
            (masked = false → z ≤ (s.line n).cfg.shortFloor → t.faults = (if (s.line n).confirmed = .short then
              blindAfter n false s else classChange n (s.line n).confirmed .short snap (blindAfter n false s)).faults) ∧
            (masked = false → (s.line n).cfg.shortFloor < z → (s.line n).passCount + 1 < (s.line n).cfg.clearCount →
              t.faults = (blindAfter n false s).faults) ∧
            (masked = false → (s.line n).cfg.shortFloor < z → (s.line n).cfg.clearCount ≤ (s.line n).passCount + 1 →
              t.faults = (classChange n (s.line n).confirmed .normal snap (blindAfter n false s)).faults))))) ∧
  ∀ (n : LineNo) (lc : Code) (trip : Bool) (s : State) (m : Measurement), s.chan.inFlight = some m →
    s.mc.resetInForce = none → m.target = .earth n → s.moveOutlasts n = true →
    ∃ t, exec (.measurementCompletion (.earth lc trip)) s = .next t ∧ t.store = s.store ∧
      (s.mc.mode ≠ .settling ∨ t.mc.mode = .settling →
        (m.epochCopy ≠ some (s.line n).epoch ∨ (s.line n).state = .disabled ∨ (s.line n).cfg.earthCheck = false →
          t.faults = s.faults) ∧
        (m.epochCopy = some (s.line n).epoch → (s.line n).state ≠ .disabled → (s.line n).cfg.earthCheck = true →
          ∀ (code : Code), code = (if trip then 4095 else lc) →
          ∀ d, d = debounce (s.line n).earth (s.line n).earthCandidate (s.line n).earthCount (requiredEarth (s.line n).cfg)
            (if trip = true ∨ 32 * (s.line n).cfg.threshold ≤ code.val then .leak else .normal) →
          ∀ snap, snap = some (Snapshot.earth code (if code.val = 0 then 9999 else min 9999 (200000 / code.val))) →
          (d.changed = false → t.faults = s.faults) ∧
          (d.changed = true → d.confirmed = .leak → t.faults =
            (if s.mc.mode = .settling then s else raise (.earthLeak n) snap s).faults) ∧
          (d.changed = true → d.confirmed = .normal → t.faults = (clear (.earthLeak n) snap s).faults)))

/-- Learn samples (R56, R57, R58): a masked one, an open one and a mean at or below the short floor end the job without a
change of the reference; the eighth sample otherwise sets it to the rounded mean and drops the debounce; raw Z, Zf and the
masked count are not touched. While ACTIVE goes on, a sample before the eighth is added to the accumulator and completes
nothing; each end hands its own completion to the issuing port, and LEARN_DONE clears UNCALIBRATED and withdraws the line from
the confirm queue, while any other sample sends the fault table nothing. -/
def Obligations.LearnSamplesMakeTheReference : Prop :=
  ∀ (n : LineNo) (vc ic : Code) (masked : Bool) (s : State) (m : Measurement), s.chan.inFlight = some m →
    s.mc.resetInForce = none → m.target = .line n → m.cls = .learn → m.epochCopy = some (s.line n).epoch →
    m.orphan = false → s.learnsOn n = true →
    ∀ acc, acc = (s.line n).learn.getD ⟨0, 0⟩ → ∀ z, z = rawImpedance vc ic (s.line n).cfg.gain →
      ∀ ref, ref = (acc.sum + z + 4) / 8 →
      ∃ t, exec (.measurementCompletion (.line vc ic masked)) s = .next t ∧ t.store = s.store ∧
        (∀ k, k ≠ n → (s.line k).keptIn (t.line k)) ∧
        (masked = true ∨ z = 65535 ∨ acc.count + 1 < 8 ∨ ref ≤ (s.line n).cfg.shortFloor →
          (s.line n).keptIn (t.line n)) ∧
        (masked = false → z < 65535 → 8 ≤ acc.count + 1 → (s.line n).cfg.shortFloor < ref →
          ({ s.line n with
            cfg := { (s.line n).cfg with zref := some ref }, candidate := none, count := 0
            deviation := deviationOf (some ref) (s.line n).zf } : Line).keptIn (t.line n)) ∧
        (s.mc.mode = .active → s.move ≠ some [] →
          (masked = false → z < 65535 → acc.count + 1 < 8 →
            t.line n = { s.line n with learn := some ⟨acc.count + 1, acc.sum + z⟩ } ∧ t.faults = s.faults ∧
            ∀ q, (t.port q).completions = (s.port q).completions ∧ (t.port q).inFlight = (s.port q).inFlight) ∧
          (masked = true ∨ z = 65535 ∨ 8 ≤ acc.count + 1 → t.chan.job = none ∧ (t.line n).learn = none ∧
            ∀ j, s.chan.job = some j → ∀ o, o = (if masked then CompletionOutcome.learnDisturbed
                else if z = 65535 then .learnOpen
                else if ref ≤ (s.line n).cfg.shortFloor then .learnShort else .learnDone) →
              (o ≠ .learnDone → t.faults = s.faults) ∧
              (o = .learnDone → t.faults = (clear (.uncalibrated n) none s).faults ∧
                t.confirmFollows (.line n) = false) ∧
              ∀ q, (t.port q).completions = ((complete j.requester o s).port q).completions ∧
                (t.port q).inFlight = ((complete j.requester o s).port q).inFlight))

/-- EARTH and AMP results (R64, R65, R74, R75, R76): one that is not stale gives the line its leakage code, or the amplifier
its code and its PROT sample, and steps the debounce; a line that is DISABLED or not checked at delivery takes nothing (DEDUCED where it was so only in between, log entry
36), and a masked AMP
result steps nothing. A stale one judges nothing (R37). An EARTH result places nothing. An amplifier whose debounce count is
above 0 after its result, a masked or a stale one included, is in the confirm queue or is granted from it in SETTLING and ACTIVE
(R26, R37, R75), and a count of 0 places nothing. A stale VERIFY result of the amplifier whose verify is waited for is discarded
and the amplifier placed in the verify queue again (R37). -/
def Obligations.EarthAndAmpReadingsStepTheirDebounce : Prop :=
  (∀ (n : LineNo) (lc : Code) (trip : Bool) (s : State) (m : Measurement), s.chan.inFlight = some m →
    s.mc.resetInForce = none → m.target = .earth n →
    ∃ t, exec (.measurementCompletion (.earth lc trip)) s = .next t ∧ t.store = s.store ∧
      (∀ x, t.confirmFollows x = true → x ∈ s.chan.confirm) ∧
      (∀ k, k ≠ n → (s.line k).keptIn (t.line k)) ∧
      (m.epochCopy ≠ some (s.line n).epoch ∨ (s.line n).state = .disabled ∨ (s.line n).cfg.earthCheck = false →
        (s.line n).keptIn (t.line n)) ∧
      (m.epochCopy = some (s.line n).epoch → (s.line n).state ≠ .disabled → (s.line n).cfg.earthCheck = true →
        ∀ (code : Code), code = (if trip then 4095 else lc) →
          ∀ d, d = debounce (s.line n).earth (s.line n).earthCandidate (s.line n).earthCount (requiredEarth (s.line n).cfg)
            (if trip = true ∨ 32 * (s.line n).cfg.threshold ≤ code.val then .leak else .normal) →
          ({ s.line n with
            lastLc := some code, earth := d.confirmed, earthCandidate := d.candidate, earthCount := d.count } :
              Line).keptIn (t.line n))) ∧
  (∀ (k : AmpNo) (ac : Code) (masked prot : Bool) (s : State) (m : Measurement), s.chan.inFlight = some m →
    s.mc.resetInForce = none → m.target = .amp k → m.cls = .verify → m.stampCopy ≠ some (s.amp k).stamp →
    s.awaitsVerify k = true →
    ∃ t, exec (.measurementCompletion (.amp ac masked prot)) s = .next t ∧ t.store = s.store ∧
      t.verifyFollows (.amp k) = true ∧ (∀ n, (s.line n).keptIn (t.line n)) ∧ (∀ j, (s.amp j).keptIn (t.amp j)) ∧
      (s.mc.mode ≠ .settling → t.amps = s.amps ∧ t.co = s.co ∧ t.faults = s.faults)) ∧
  ∀ (k : AmpNo) (ac : Code) (masked prot : Bool) (s : State) (m : Measurement), s.chan.inFlight = some m →
    s.mc.resetInForce = none → m.target = .amp k → m.cls = .scan ∨ m.cls = .confirm →
    ∃ t, exec (.measurementCompletion (.amp ac masked prot)) s = .next t ∧ t.store = s.store ∧
      (∀ n, (s.line n).keptIn (t.line n)) ∧ (∀ j, j ≠ k → (s.amp j).keptIn (t.amp j)) ∧
      (m.stampCopy ≠ some (s.amp k).stamp ∨ (s.amp k).state = .disabled ∨ masked = true →
        (s.amp k).keptIn (t.amp k) ∧
        (s.runs = true → (s.amp k).state ≠ .disabled → 0 < (s.amp k).count → t.confirmFollows (.amp k) = true) ∧
        ((s.amp k).count = 0 → .amp k ∉ s.chan.confirm → t.confirmFollows (.amp k) = false)) ∧
      (m.stampCopy = some (s.amp k).stamp → (s.amp k).state ≠ .disabled → masked = false →
        ∀ d, d = debounce (s.amp k).condition (s.amp k).candidate (s.amp k).count (requiredCondition (s.amp k).cfg)
            (if (s.amp k).cfg.amin ≤ ac.val ∧ prot = false then .normal else .fail) →
          ({ s.amp k with
            lastAc := some ac, lastProt := some prot, condition := d.confirmed, candidate := d.candidate
            count := d.count } : Amp).keptIn (t.amp k) ∧
          (s.runs = true → 0 < d.count → t.confirmFollows (.amp k) = true) ∧
          (d.count = 0 → .amp k ∉ s.chan.confirm → t.confirmFollows (.amp k) = false))

/-- The verify of an operation in flight (R93, R94, R95, R99): a cover whose standby reads normal is COVERED, or relieved
where the duty amplifier is well, and completes (a duty amplifier in a state that R94 does not name keeps it: DESIGN CHOICE,
log entry 24); one whose standby does not makes the standby FAULTY, and its lines go back
(said for a move back that starts a relay operation, since one that starts none is done at once);
a return whose duty amplifier reads normal with condition NORMAL makes it HEALTHY, frees the standby and completes. The
clauses are for an empty queue and a move that is not done. A return whose standby is the duty amplifier itself is among them
(R98). A masked verify changes nothing of these and is placed again (R93): it is granted next where no entry before it can be.
The failed return (R100) is stated with the grants. -/
def Obligations.VerifyDecidesTheOperation : Prop :=
  ∀ (k : AmpNo) (ac : Code) (prot : Bool) (s : State) (m : Measurement), s.chan.inFlight = some m →
    s.mc.resetInForce = none → m.target = .amp k → m.cls = .verify → m.stampCopy = some (s.amp k).stamp →
    ∀ o, s.co.op = some o → o.phase = .verifying → s.co.queue = [] → s.move ≠ some [] → s.mc.mode = .active →
    (o.verified = k → ∃ t, exec (.measurementCompletion (.amp ac true prot)) s = .next t ∧ t.store = s.store ∧
      t.amps = s.amps ∧ t.co = s.co ∧ t.lines = s.lines ∧ t.faults = s.faults ∧ t.move = s.move ∧
      (.amp k ∈ t.chan.verify ∨ t.chan.inFlight = some (s.granted (.amp k) .verify none)) ∧
      ((∀ y ∈ s.chan.verify, s.grantsVerify y = false) →
        t.chan.inFlight = some (s.granted (.amp k) .verify none))) ∧
    ∃ t, exec (.measurementCompletion (.amp ac false prot)) s = .next t ∧ t.store = s.store ∧
      (o.kind = .cover → o.standby = k → o.duty ≠ k → (s.amp k).cfg.amin ≤ ac.val → prot = false →
        t.co = { s.co with op := none } ∧
        t.amp o.duty = { s.amp o.duty with
          state := if (s.amp o.duty).state = .failed then .covered
            else if (s.amp o.duty).state = .healthy ∨ (s.amp o.duty).state = .suspect then .relieved
            else (s.amp o.duty).state
          stamp := if (s.amp o.duty).state = .failed ∨ (s.amp o.duty).state = .healthy ∨ (s.amp o.duty).state = .suspect
            then (s.amp o.duty).stamp + 1 else (s.amp o.duty).stamp
          coveringStandby := some k, coverSeq := some o.seq } ∧
        (∀ j, j ≠ o.duty → t.amp j = s.amp j) ∧
        ∀ r, o.requester = some r → r.session = (s.port r.port).session → 0 < (s.port r.port).inFlight →
          (t.port r.port).completions = (s.port r.port).completions ++ [⟨r.tag, r.request, .covered⟩]) ∧
      (o.kind = .cover → o.standby = k → o.duty ≠ k → ac.val < (s.amp k).cfg.amin ∨ prot = true →
        (t.amp k).state = .faulty ∧ (t.amp k).condition = .fail ∧ (t.amp k).coveredAmp = none ∧
        (t.amp k).lastAc = some ac ∧ (t.amp k).lastProt = some prot ∧
        ((∃ n, (s.line n).current = k ∧ (s.line n).state = .connected ∧ (s.line n).selector ≠ .bus o.duty) →
          (t.amp o.duty).carrying = o.duty ∧ (∀ n, (s.line n).current = k → (t.line n).current = o.duty) ∧
          t.co = { s.co with op := some { o with phase := .movingBack } })) ∧
      (o.kind = .returnLines → o.duty = k → (s.amp k).cfg.amin ≤ ac.val → prot = false →
        (s.amp k).condition = .normal →
        t.co = { s.co with op := none } ∧ (t.amp k).state = .healthy ∧ (t.amp k).coveringStandby = none ∧
        (t.amp k).coverSeq = none ∧
        (o.standby ≠ k → (s.amp o.standby).state = .busy → (s.amp o.standby).coveredAmp = some k →
          (t.amp o.standby).state = .free ∧ (t.amp o.standby).coveredAmp = none) ∧
        ∀ r, o.requester = some r → r.session = (s.port r.port).session → 0 < (s.port r.port).inFlight →
          (t.port r.port).completions = (s.port r.port).completions ++ [⟨r.tag, r.request, .returned⟩])

/-- Expiries (R5, R7, R9, R31, R93): a relay operation ends with its line at rest, and the last of a move's brings the operation
in flight to its verify; a running retry timer ends idle and starts the line's probe, or marks it due during emergency; an
empty round ends and the next number begins. Each is taken whatever time is left (DESIGN CHOICE, log entry 8) and is no event
where nothing of the kind runs (DESIGN CHOICE, log entry 6). The exact results are for a
measurement in flight. -/
def Obligations.ExpiriesEndWhatRan : Prop :=
  ∀ (n : LineNo) (s : State), s.mc.resetInForce = none →
    ((s.line n).relayLeft = none → exec (.relayCompletion n) s = .next s) ∧
    ((s.line n).relayLeft.isSome → ∃ t, exec (.relayCompletion n) s = .next t ∧ t.store = s.store ∧
      (∀ k, (s.line k).keptIn (t.line k)) ∧
      (s.chan.inFlight.isSome →
        (s.moveOutlasts n = true → t = { s.setLine n { s.line n with relayLeft := none } with
          move := s.move.map fun l => l.filter fun m => m ≠ n }) ∧
        ∀ o, s.co.op = some o → o.phase = .moving → s.move = some [n] →
          ∀ k, k = Subject.amp (if o.kind = .cover then o.standby else o.duty) → t = { s.setLine n { s.line n with relayLeft := none } with
            move := none
            co := { s.co with op := some { o with phase := .verifying } }
            chan := { s.chan with verify :=
              if k ∈ s.chan.verify then s.chan.verify else s.chan.verify ++ [k] } })) ∧
    ((s.line n).timer.freeze = (s.line n).timer → exec (.retryExpiry n) s = .next s) ∧
    ((s.line n).timer.freeze ≠ (s.line n).timer → ∃ t, exec (.retryExpiry n) s = .next t ∧ t.store = s.store ∧
      (∀ k, k ≠ n → (s.line k).keptIn (t.line k)) ∧
      (s.emergency = true → ({ s.line n with probeDue := true } : Line).keptIn (t.line n)) ∧
      (s.emergency = false → ({ s.line n with
        state := .probing, cause := .noCause, zf := none, deviation := none, passCount := 0, probeDue := false } :
          Line).keptIn (t.line n)) ∧
      (s.chan.inFlight.isSome → s.moveOutlasts n = true → s.learnsOn n = false →
        (s.emergency = true → t = s.setLine n { s.line n with probeDue := true, timer := .idle }) ∧
        (s.emergency = false → t = { s.setLine n { (s.line n).sentTo .test with
            state := .probing, cause := .noCause, zf := none, deviation := none, passCount := 0, probeDue := false
            timer := .idle } with
          move := t.move
          chan := { s.chan with
            verify := if .line n ∈ s.chan.verify then s.chan.verify else s.chan.verify ++ [.line n] } }))) ∧
    (s.chan.round.any (fun r => r.slots = []) = false → exec .emptyRoundExpiry s = .next s) ∧
    (s.chan.round.any (fun r => r.slots = []) = true → ∃ t, exec .emptyRoundExpiry s = .next t ∧ t.store = s.store ∧
      (∀ k, (s.line k).keptIn (t.line k)) ∧ t.chan.roundNumber = s.chan.roundNumber + 1 ∧
      (s.mc.mode = .active → t = { s with chan := t.chan, ports := t.ports }))

/-! ### Baseline records, the filter, and the invariants -/

/-- A record that the part builds is accepted when the load reads it back (R163, R164, R165): built from a working
configuration within the stored ranges it passes every check, its condition becomes VALID with cause NONE, and its subject's
configuration becomes the one it was built from, with `enabled` by the state that the subject had. -/
def Obligations.EveryBuiltRecordLoadsBack : Prop :=
  ∀ (k : RecordNo) (u s : State), u.configOk = true → s.mc.resetInForce = none → s.mc.mode = .loading →
    s.store.judged = k.val → s.canAnswer k (buildRecord k u) = true →
    ∃ t, exec (.recordRead (buildRecord k u)) s = .next t ∧ t.recordStatus k = ⟨.valid, .noCause⟩ ∧
      (∀ n, subjectOf k = .line n →
        (t.line n).cfg = { (u.line n).cfg with enabled := decide ((u.line n).state ≠ .disabled) }) ∧
      (∀ j, subjectOf k = .amp j →
        (t.amp j).cfg = { (u.amp j).cfg with enabled := decide ((u.amp j).state ≠ .disabled) }) ∧
      (subjectOf k = .system → t.mc.sys = u.mc.sys)

/-- The CRC of R164 catches a changed byte: an accepted record of which any one byte is changed, among its fields or in the
CRC itself, is judged BAD_CRC, or BLANK where nothing but 0xFF is left (R165). -/
def Obligations.OneChangedByteIsCaught : Prop :=
  ∀ (k : RecordNo) (b : List Byte) (i : Nat) (v : Byte), b.length = (subjectOf k).recordLen → i < b.length →
    b[i]? ≠ some v → judgeRecord k b = .noCause →
    judgeRecord k (b.set i v) = .badCrc ∨ judgeRecord k (b.set i v) = .blank

/-- The filter moves toward a reading and arrives (R43): between its value and the reading, at the reading for shift 0, and
under a reading that does not change it comes to rest on it within as many readings as they were ohms apart; an open reading
and a reseed are taken as they are. -/
def Obligations.FilterMovesTowardTheReadingAndArrives : Prop :=
  ∀ shift z f : Nat,
    filterZ none shift z = z ∧ filterZ (some f) shift 65535 = 65535 ∧ filterZ (some 65535) shift z = z ∧
    (z < 65535 → f < 65535 →
      min f z ≤ filterZ (some f) shift z ∧ filterZ (some f) shift z ≤ max f z ∧
      (shift = 0 → filterZ (some f) shift z = z) ∧ (f ≠ z → filterZ (some f) shift z ≠ f) ∧
      Nat.repeat (fun x => filterZ (some x) shift z) (max f z - min f z) f = z)

/-- Every step keeps the fault table in order (R109, R112, R115, R116, R121, R122, R124), and with it the ports (R129, R143):
at most 48 records and one per key, deferred keys only beside a full table, marks only for listening ports, no finished
record left; at most four long requests of a port outstanding, and no class in service at a port that does not listen. -/
def Obligations.EveryStepKeepsTheFaultTableAndThePorts : Prop :=
  ∀ s t : State, step s = .next t → s.tableOk = true →
    t.tableOk = true ∧ (s.portsOk = true → t.portsOk = true)

/-- Every step keeps the line and amplifier records (1.1, R3, R9, R48, R65, R72, R76): the isolation cause agrees with the
state, a debounce that holds a candidate is below its required count, a timer or a due probe belongs to a line that may have
one. It is said of states in which nothing is measured or operated on during LOADING, which every step keeps. With them it
keeps every selector at, or moving to, the position of its line's state (R4), at a DISABLE_AMP too, where R84 gives a line
another current amplifier (a CONNECTED one there: DEDUCED, log entry 33). -/
def Obligations.EveryStepKeepsTheLineAndAmplifierRecords : Prop :=
  ∀ s t : State, step s = .next t → s.recordsOk = true → s.modeOk = true →
    t.recordsOk = true ∧ (s.selectorsOk = true → t.selectorsOk = true)

/-- Every step keeps the working configuration within the stored ranges (R163), with a learn accumulator of fewer than eight
samples whose mean is a reference in range (R57). -/
def Obligations.EveryStepKeepsTheStoredRanges : Prop :=
  ∀ s t : State, step s = .next t → s.configOk = true → t.configOk = true

/-- Every step keeps the queues of the channel free of repeats (R25, R26), the channel and the changeover unit as the mode
promises (R28, R35, R151, R155), the changeover queue in its order with no amplifier twice (R87), and the conditions of the
baseline records in agreement with the write in flight and the load (R162, R166, R176). -/
def Obligations.EveryStepKeepsTheQueuesTheModeAndTheStore : Prop :=
  ∀ s t : State, step s = .next t →
    (s.queuesOk = true → t.queuesOk = true) ∧ (s.modeOk = true → t.modeOk = true) ∧
      (s.changeoverOk = true → t.changeoverOk = true) ∧ (s.storeOk = true → t.storeOk = true)

/-- The state after reset meets every invariant, with no command waiting (R128, R160, R162, R163, R176; the values that the
specification does not give are the model's choices, log entries 2 to 5). -/
def Obligations.TheResetStateIsSafe : Prop := State.reset.safe = true ∧ State.reset.pending = []
end

