-- ==== Sys2Proof/Laws/State.lean ====
section
/-! SUPPORT. Reading back what the accessors write: one lemma per field per update. -/

namespace Sys2Proof.Machine

variable (s : State) (n m : LineNo) (k j : AmpNo) (p q : Port) (l : Line) (x : Amp) (y : PortState)

/-! ### Per-port data -/

@[simp] theorem PerPort.get_set_same {α : Type} (v : PerPort α) (w : α) : (v.set p w).get p = w := by cases p <;> rfl

theorem PerPort.get_set_ne {α : Type} (v : PerPort α) (w : α) (h : q ≠ p) : (v.set p w).get q = v.get q := by
  cases p <;> cases q <;> first | rfl | exact absurd rfl h

theorem PerPort.ext_get {α : Type} {v w : PerPort α} (h : ∀ p, v.get p = w.get p) : v = w := by
  cases v; cases w
  have ha := h .a; have hb := h .b; have hm := h .m
  simp only [PerPort.get] at ha hb hm
  simp [ha, hb, hm]

/-! ### Line records -/

@[simp] theorem line_setLine_same : (s.setLine n l).line n = l := by
  show (s.lines.set n.val l n.isLt)[n.val] = l
  simp

theorem line_setLine_ne (h : m ≠ n) : (s.setLine n l).line m = s.line m := by
  have h' : n.val ≠ m.val := fun e => h (Fin.ext e.symm)
  show (s.lines.set n.val l n.isLt)[m.val] = s.lines[m.val]
  simp [h']

theorem line_setLine : (s.setLine n l).line m = if m = n then l else s.line m := by
  by_cases h : m = n
  · subst h; simp
  · simp [h, line_setLine_ne]

@[simp] theorem setLine_frame : (s.setLine n l).amps = s.amps ∧ (s.setLine n l).chan = s.chan ∧
    (s.setLine n l).co = s.co ∧ (s.setLine n l).move = s.move ∧ (s.setLine n l).faults = s.faults ∧
    (s.setLine n l).ports = s.ports ∧ (s.setLine n l).mc = s.mc ∧ (s.setLine n l).store = s.store ∧
    (s.setLine n l).freeUses = s.freeUses ∧ (s.setLine n l).pending = s.pending :=
  ⟨rfl, rfl, rfl, rfl, rfl, rfl, rfl, rfl, rfl, rfl⟩

@[simp] theorem amp_setLine : (s.setLine n l).amp k = s.amp k := rfl
@[simp] theorem port_setLine : (s.setLine n l).port p = s.port p := rfl
@[simp] theorem runs_setLine : (s.setLine n l).runs = s.runs := rfl
@[simp] theorem emergency_setLine : (s.setLine n l).emergency = s.emergency := rfl

/-! ### Amplifier records -/

@[simp] theorem amp_setAmp_same : (s.setAmp k x).amp k = x := by
  show (s.amps.set k.val x k.isLt)[k.val] = x
  simp

theorem amp_setAmp_ne (h : j ≠ k) : (s.setAmp k x).amp j = s.amp j := by
  have h' : k.val ≠ j.val := fun e => h (Fin.ext e.symm)
  show (s.amps.set k.val x k.isLt)[j.val] = s.amps[j.val]
  simp [h']

theorem amp_setAmp : (s.setAmp k x).amp j = if j = k then x else s.amp j := by
  by_cases h : j = k
  · subst h; simp
  · simp [h, amp_setAmp_ne]

@[simp] theorem setAmp_frame : (s.setAmp k x).lines = s.lines ∧ (s.setAmp k x).chan = s.chan ∧
    (s.setAmp k x).co = s.co ∧ (s.setAmp k x).move = s.move ∧ (s.setAmp k x).faults = s.faults ∧
    (s.setAmp k x).ports = s.ports ∧ (s.setAmp k x).mc = s.mc ∧ (s.setAmp k x).store = s.store ∧
    (s.setAmp k x).freeUses = s.freeUses ∧ (s.setAmp k x).pending = s.pending :=
  ⟨rfl, rfl, rfl, rfl, rfl, rfl, rfl, rfl, rfl, rfl⟩

@[simp] theorem line_setAmp : (s.setAmp k x).line n = s.line n := rfl
@[simp] theorem port_setAmp : (s.setAmp k x).port p = s.port p := rfl
@[simp] theorem runs_setAmp : (s.setAmp k x).runs = s.runs := rfl
@[simp] theorem emergency_setAmp : (s.setAmp k x).emergency = s.emergency := rfl

/-! ### Ports -/

@[simp] theorem port_setPort_same : (s.setPort p y).port p = y := by simp [State.port, State.setPort]

theorem port_setPort_ne (h : q ≠ p) : (s.setPort p y).port q = s.port q := by
  simp [State.port, State.setPort, PerPort.get_set_ne, h]

theorem port_setPort : (s.setPort p y).port q = if q = p then y else s.port q := by
  by_cases h : q = p
  · subst h; simp
  · simp [h, port_setPort_ne]

@[simp] theorem setPort_frame : (s.setPort p y).lines = s.lines ∧ (s.setPort p y).amps = s.amps ∧
    (s.setPort p y).chan = s.chan ∧ (s.setPort p y).co = s.co ∧ (s.setPort p y).move = s.move ∧
    (s.setPort p y).faults = s.faults ∧ (s.setPort p y).mc = s.mc ∧ (s.setPort p y).store = s.store ∧
    (s.setPort p y).freeUses = s.freeUses ∧ (s.setPort p y).pending = s.pending :=
  ⟨rfl, rfl, rfl, rfl, rfl, rfl, rfl, rfl, rfl, rfl⟩

@[simp] theorem line_setPort : (s.setPort p y).line n = s.line n := rfl
@[simp] theorem amp_setPort : (s.setPort p y).amp k = s.amp k := rfl
@[simp] theorem runs_setPort : (s.setPort p y).runs = s.runs := rfl
@[simp] theorem emergency_setPort : (s.setPort p y).emergency = s.emergency := rfl

/-! ### Records read through an updated state -/

theorem lines_get : s.lines.get n = s.line n := rfl
theorem amps_get : s.amps.get k = s.amp k := rfl
@[simp] theorem lines_getElem : s.lines[n.val] = s.line n := rfl
@[simp] theorem amps_getElem : s.amps[k.val] = s.amp k := rfl
@[simp] theorem ports_get : s.ports.get p = s.port p := rfl

section Mk
variable (L : Vector Line 16) (A : Vector Amp 6) (C : Channel) (O : Changeover) (M : Option (List LineNo))
  (F : FaultTable) (P : PerPort PortState) (K : ModeControl) (S : Store) (U : Nat) (Q : List Instr)

@[simp] theorem line_mk : (State.mk L A C O M F P K S U Q).line n = L[n.val] := rfl
@[simp] theorem amp_mk : (State.mk L A C O M F P K S U Q).amp k = A[k.val] := rfl
@[simp] theorem port_mk : (State.mk L A C O M F P K S U Q).port p = P.get p := rfl
end Mk

/-- The record of a line in a state with the same lines. -/
theorem line_congr {s t : State} (h : t.lines = s.lines) (n : LineNo) : t.line n = s.line n := by
  simp only [State.line, h]

theorem amp_congr {s t : State} (h : t.amps = s.amps) (k : AmpNo) : t.amp k = s.amp k := by
  simp only [State.amp, h]

theorem port_congr {s t : State} (h : t.ports = s.ports) (p : Port) : t.port p = s.port p := by
  simp only [State.port, h]

/-! ### Replies -/

@[simp] theorem answer_frame (r : Reply) : (s.answer p r).lines = s.lines ∧ (s.answer p r).amps = s.amps ∧
    (s.answer p r).chan = s.chan ∧ (s.answer p r).co = s.co ∧ (s.answer p r).move = s.move ∧
    (s.answer p r).faults = s.faults ∧ (s.answer p r).mc = s.mc ∧ (s.answer p r).store = s.store ∧
    (s.answer p r).freeUses = s.freeUses ∧ (s.answer p r).pending = s.pending :=
  ⟨rfl, rfl, rfl, rfl, rfl, rfl, rfl, rfl, rfl, rfl⟩

@[simp] theorem line_answer (r : Reply) : (s.answer p r).line n = s.line n := rfl
@[simp] theorem amp_answer (r : Reply) : (s.answer p r).amp k = s.amp k := rfl

@[simp] theorem port_answer_same (r : Reply) : (s.answer p r).port p = { s.port p with reply := some r } := by
  simp [State.answer]

theorem port_answer_ne (r : Reply) (h : q ≠ p) : (s.answer p r).port q = s.port q := by
  simp [State.answer, port_setPort_ne, h]

end Sys2Proof.Machine
end

