-- ==== Sys2Proof/Laws/Table.lean ====
section
/-! SUPPORT. What the operations of the fault table and of the notification unit can do: a case lemma each for raise,
clear, acknowledge and removal, and what each leaves as it stands. -/

namespace Sys2Proof.Machine

variable (s : State) (k : FaultKey) (snap : Option Snapshot) (c : ClassNo) (p : Port) (v : Bool) (r : FaultRecord)
  (marked : PerPort Bool)

/-! ### Latches -/

/-- All but the ports stands. -/
structure SameButPorts (s t : State) : Prop where
  lines : t.lines = s.lines
  amps : t.amps = s.amps
  chan : t.chan = s.chan
  co : t.co = s.co
  move : t.move = s.move
  faults : t.faults = s.faults
  mc : t.mc = s.mc
  store : t.store = s.store
  pending : t.pending = s.pending

/-- All but the fault table and the ports stands. -/
structure SameButTable (s t : State) : Prop where
  lines : t.lines = s.lines
  amps : t.amps = s.amps
  chan : t.chan = s.chan
  co : t.co = s.co
  move : t.move = s.move
  mc : t.mc = s.mc
  store : t.store = s.store
  pending : t.pending = s.pending

theorem SameButPorts.refl : SameButPorts s s := ⟨rfl, rfl, rfl, rfl, rfl, rfl, rfl, rfl, rfl⟩

theorem SameButPorts.trans {s t u : State} (h : SameButPorts s t) (g : SameButPorts t u) : SameButPorts s u :=
  ⟨g.lines.trans h.lines, g.amps.trans h.amps, g.chan.trans h.chan, g.co.trans h.co, g.move.trans h.move,
    g.faults.trans h.faults, g.mc.trans h.mc, g.store.trans h.store, g.pending.trans h.pending⟩

theorem SameButTable.refl : SameButTable s s := ⟨rfl, rfl, rfl, rfl, rfl, rfl, rfl, rfl⟩

theorem SameButTable.trans {s t u : State} (h : SameButTable s t) (g : SameButTable t u) : SameButTable s u :=
  ⟨g.lines.trans h.lines, g.amps.trans h.amps, g.chan.trans h.chan, g.co.trans h.co, g.move.trans h.move,
    g.mc.trans h.mc, g.store.trans h.store, g.pending.trans h.pending⟩

theorem SameButPorts.table {s t : State} (h : SameButPorts s t) : SameButTable s t :=
  ⟨h.lines, h.amps, h.chan, h.co, h.move, h.mc, h.store, h.pending⟩

theorem setLatch_same : SameButPorts s (s.setLatch p v) := ⟨rfl, rfl, rfl, rfl, rfl, rfl, rfl, rfl, rfl⟩

theorem signalIfEligible_same : SameButPorts s (signalIfEligible p s) := by
  unfold signalIfEligible; split
  · exact setLatch_same s p true
  · exact .refl s

theorem noticePort_same : SameButPorts s (noticePort c p s) := by
  unfold noticePort; split
  · exact setLatch_same s p true
  · exact .refl s

/-- A fold of steps that each leave all but the ports leaves all but the ports. -/
theorem foldl_sameButPorts {α : Type} (f : State → α → State) (h : ∀ s a, SameButPorts s (f s a)) (l : List α) (s : State) :
    SameButPorts s (l.foldl f s) := by
  induction l generalizing s with
  | nil => exact .refl s
  | cons a l ih => exact (h s a).trans (ih (f s a))

/-- A fold of steps that each leave all but the table and the ports leaves all but these. -/
theorem foldl_sameButTable {α : Type} (f : State → α → State) (h : ∀ s a, SameButTable s (f s a)) (l : List α)
    (s : State) : SameButTable s (l.foldl f s) := by
  induction l generalizing s with
  | nil => exact .refl s
  | cons a l ih => exact (h s a).trans (ih (f s a))

theorem signalAll_same : SameButPorts s (signalAll s) :=
  foldl_sameButPorts _ (fun s p => signalIfEligible_same s p) _ s

theorem notice_same : SameButPorts s (notice c marked s) :=
  foldl_sameButPorts _ (fun s p => by split; exacts [noticePort_same s c p, .refl s]) _ s

/-- Whether a port is signalled depends on the table, the mode and its own state but its latch. -/
theorem signalsNow_setLatch (q : Port) : (s.setLatch q v).signalsNow p c = s.signalsNow p c := by
  cases p <;> cases q <;> rfl

/-- A notice sets the latch of each marked port that is signalled now, and changes nothing else of any port (R139). -/
theorem port_notice : (notice c marked s).port p =
    { s.port p with latch := (s.port p).latch || (marked.get p && s.signalsNow p c) } := by
  have step : ∀ (t : State) (q : Port),
      (if marked.get q then noticePort c q t else t).port p =
        if p = q then { t.port p with latch := (t.port p).latch || (marked.get p && t.signalsNow p c) } else t.port p := by
    intro t q
    by_cases h : p = q
    · subst h
      by_cases h1 : marked.get p <;> by_cases h2 : t.signalsNow p c <;> simp [noticePort, State.setLatch, h1, h2]
    · by_cases h1 : marked.get q <;> by_cases h2 : t.signalsNow q c <;>
        simp [noticePort, State.setLatch, h1, h2, h, port_setPort_ne]
  have keep : ∀ (t : State) (q : Port),
      (if marked.get q then noticePort c q t else t).signalsNow p c = t.signalsNow p c := by
    intro t q
    by_cases h1 : marked.get q <;> by_cases h2 : t.signalsNow q c <;> simp [noticePort, h1, h2, signalsNow_setLatch]
  simp only [notice, allPorts, List.foldl]
  cases p <;> simp [step, keep]

/-! ### Transitions and the operations that make them -/

/-- The table after a transition of `r`: the next stamp, and the record at the tail (R111, R112). -/
def FaultTable.stamped (t : FaultTable) (r : FaultRecord) : FaultTable :=
  { t with counter := t.counter + 1, records := toTail { r with stamp := t.counter + 1 } t.records }

theorem transition_eq : transition r marked s = notice r.key.cls marked { s with faults := s.faults.stamped r } := rfl

@[simp] theorem transition_faults : (transition r marked s).faults = s.faults.stamped r :=
  (notice_same _ _ _).faults

theorem withFaults_same (t : FaultTable) : SameButTable s { s with faults := t } := ⟨rfl, rfl, rfl, rfl, rfl, rfl, rfl, rfl⟩

theorem transition_same : SameButTable s (transition r marked s) := by
  rw [transition_eq]
  exact (withFaults_same s _).trans (notice_same _ r.key.cls marked).table

theorem createRecord_same (first : Word) : SameButTable s (createRecord k snap first s) := transition_same s _ _

theorem deferKey_same : SameButTable s (deferKey k snap s) := ⟨rfl, rfl, rfl, rfl, rfl, rfl, rfl, rfl⟩

theorem raise_same : SameButTable s (raise k snap s) := by
  unfold raise
  split
  · split
    · exact .refl s
    · exact .refl s
    · exact transition_same s _ _
    · exact transition_same s _ _
  · split
    · exact createRecord_same s k snap _
    · exact deferKey_same s k snap

theorem dropDeferred_same : SameButTable s (dropDeferred k s) := ⟨rfl, rfl, rfl, rfl, rfl, rfl, rfl, rfl⟩

theorem release_same : SameButTable s (release s) := by
  unfold release
  split
  · exact .refl s
  · exact (dropDeferred_same s _).trans (createRecord_same _ _ _ _)

theorem checkRemoval_same : SameButTable s (checkRemoval k s) := by
  unfold checkRemoval
  split
  · split
    · exact (withFaults_same s _).trans (release_same _)
    · exact .refl s
  · exact .refl s

theorem clear_same : SameButTable s (clear k snap s) := by
  unfold clear
  split
  · split
    · exact transition_same s _ _
    · exact (transition_same s _ _).trans (checkRemoval_same _ _)
    · exact .refl s
    · exact .refl s
  · split
    · exact dropDeferred_same s k
    · exact .refl s

theorem acknowledge_same : SameButTable s (acknowledge p k s) := by
  unfold acknowledge
  split
  · dsimp only
    split
    · exact (transition_same s _ _).trans (checkRemoval_same _ _)
    · exact (transition_same s _ _).trans (checkRemoval_same _ _)
    · exact .refl s
    · exact .refl s
  · exact .refl s

theorem dropMark_same : SameButTable s (dropMark p k s) := ⟨rfl, rfl, rfl, rfl, rfl, rfl, rfl, rfl⟩

theorem dropAllMarks_same : SameButTable s (dropAllMarks p s) := by
  unfold dropAllMarks
  exact (withFaults_same s _).trans (foldl_sameButTable _ (fun s k => checkRemoval_same s k) _ _)

/-! ### Case lemmas -/

/-- What a raise can do (R113 to R115): nothing to an active record, a reactivation of a cleared or closed one, a new
record where there is a place, a deferral where there is none. -/
theorem raise_cases :
    (∃ r, s.faults.find k = some r ∧ (r.lifecycle = .activeUnack ∨ r.lifecycle = .activeAck) ∧ raise k snap s = s) ∨
    (∃ r, s.faults.find k = some r ∧ (r.lifecycle = .clearedUnack ∨ r.lifecycle = .closed) ∧
      raise k snap s =
        transition
          { r with lifecycle := .activeUnack, occurrences := min 255 (r.occurrences + 1), ackPort := none,
                   snapshot := snap, marks := joinMarks r.marks s.listeners } s.listeners s) ∨
    (s.faults.find k = none ∧ s.faults.records.length < tableCapacity ∧
      raise k snap s = createRecord k snap s.chan.roundNumber s) ∨
    (s.faults.find k = none ∧ tableCapacity ≤ s.faults.records.length ∧ raise k snap s = deferKey k snap s) := by
  unfold raise
  cases hf : s.faults.find k with
  | some r =>
    cases hl : r.lifecycle with
    | activeUnack => exact .inl ⟨r, rfl, .inl hl, by simp [hl]⟩
    | activeAck => exact .inl ⟨r, rfl, .inr hl, by simp [hl]⟩
    | clearedUnack => exact .inr (.inl ⟨r, rfl, .inl hl, by simp [hl]⟩)
    | closed => exact .inr (.inl ⟨r, rfl, .inr hl, by simp [hl]⟩)
  | none =>
    by_cases h : s.faults.records.length < tableCapacity
    · exact .inr (.inr (.inl ⟨rfl, h, by simp [h]⟩))
    · exact .inr (.inr (.inr ⟨rfl, Nat.le_of_not_lt h, by simp [h]⟩))

/-- What a clear can do (R117). -/
theorem clear_cases :
    (∃ r, s.faults.find k = some r ∧ r.lifecycle = .activeUnack ∧
      clear k snap s =
        transition { r with lifecycle := .clearedUnack, snapshot := snap, marks := joinMarks r.marks s.listeners }
          s.listeners s) ∨
    (∃ r, s.faults.find k = some r ∧ r.lifecycle = .activeAck ∧
      clear k snap s =
        checkRemoval k
          (transition { r with lifecycle := .closed, snapshot := snap, marks := joinMarks r.marks s.listeners }
            s.listeners s)) ∨
    (∃ r, s.faults.find k = some r ∧ (r.lifecycle = .clearedUnack ∨ r.lifecycle = .closed) ∧ clear k snap s = s) ∨
    (s.faults.find k = none ∧ s.faults.defers k ∧ clear k snap s = dropDeferred k s) ∨
    (s.faults.find k = none ∧ s.faults.defers k = false ∧ clear k snap s = s) := by
  unfold clear
  cases hf : s.faults.find k with
  | some r =>
    cases hl : r.lifecycle with
    | activeUnack => exact .inl ⟨r, rfl, hl, by simp [hl]⟩
    | activeAck => exact .inr (.inl ⟨r, rfl, hl, by simp [hl]⟩)
    | clearedUnack => exact .inr (.inr (.inl ⟨r, rfl, .inl hl, by simp [hl]⟩))
    | closed => exact .inr (.inr (.inl ⟨r, rfl, .inr hl, by simp [hl]⟩))
  | none =>
    cases h : s.faults.defers k with
    | true => exact .inr (.inr (.inr (.inl ⟨rfl, rfl, by simp⟩)))
    | false => exact .inr (.inr (.inr (.inr ⟨rfl, rfl, by simp⟩)))

/-- What a removal check can do (R122, R123). -/
theorem checkRemoval_cases :
    checkRemoval k s = s ∨
    (∃ r, s.faults.find k = some r ∧ r.finished ∧
      checkRemoval k s = release { s with faults.records := s.faults.records.filter (·.key ≠ k) }) := by
  unfold checkRemoval
  cases hf : s.faults.find k with
  | some r =>
    by_cases h : r.finished
    · exact .inr ⟨r, rfl, h, by simp [h]⟩
    · exact .inl (by simp [h])
  | none => exact .inl rfl

/-- The record of a key has that key, and stands in the table. -/
theorem find_some {t : FaultTable} (h : t.find k = some r) : r.key = k ∧ r ∈ t.records :=
  ⟨by simpa using List.find?_some h, List.mem_of_find?_eq_some h⟩

end Sys2Proof.Machine
end

