-- ==== Sys2Proof/Laws/Lines.lean ====
section
/-! SUPPORT. What the operations of the line supervisor and the earth monitor can do: the selector order once and for
all, and that none of them touches the amplifiers, the changeover unit, mode control, the store or the queue. -/

namespace Sys2Proof.Machine

variable (s : State) (n : LineNo)

/-- The work of the line supervisor: amplifiers, changeover unit, mode control, store and queue stand. -/
structure LineWork (s t : State) : Prop where
  amps : t.amps = s.amps
  co : t.co = s.co
  mc : t.mc = s.mc
  store : t.store = s.store
  pending : t.pending = s.pending

theorem LineWork.refl : LineWork s s := ⟨rfl, rfl, rfl, rfl, rfl⟩

theorem LineWork.trans {s t u : State} (h : LineWork s t) (g : LineWork t u) : LineWork s u :=
  ⟨g.amps.trans h.amps, g.co.trans h.co, g.mc.trans h.mc, g.store.trans h.store, g.pending.trans h.pending⟩

theorem SameButTable.lineWork {s t : State} (h : SameButTable s t) : LineWork s t :=
  ⟨h.amps, h.co, h.mc, h.store, h.pending⟩

theorem setLine_work (l : Line) : LineWork s (s.setLine n l) := ⟨rfl, rfl, rfl, rfl, rfl⟩

theorem setPort_work (p : Port) (x : PortState) : LineWork s (s.setPort p x) := ⟨rfl, rfl, rfl, rfl, rfl⟩

theorem mapLines_work (f : Line → Line) : LineWork s (s.mapLines f) := ⟨rfl, rfl, rfl, rfl, rfl⟩

theorem withChan_work (c : Channel) : LineWork s { s with chan := c } := ⟨rfl, rfl, rfl, rfl, rfl⟩

theorem withMove_work (m : Option (List LineNo)) : LineWork s { s with move := m } := ⟨rfl, rfl, rfl, rfl, rfl⟩

/-- A fold of line work is line work. -/
theorem foldl_work {α : Type} (f : State → α → State) (h : ∀ s a, LineWork s (f s a)) (l : List α) (s : State) :
    LineWork s (l.foldl f s) := by
  induction l generalizing s with
  | nil => exact .refl s
  | cons a l ih => exact (h s a).trans (ih (f s a))

/-! ### Queues of the channel, completions -/

theorem placeVerify_id (x : Subject) : placeVerify id x s =
    { s with chan.verify := if x ∈ s.chan.verify then s.chan.verify else s.chan.verify ++ [x] } := by
  unfold placeVerify
  by_cases h : x ∈ s.chan.verify <;> simp [h]

theorem placeVerify_id_work (x : Subject) : LineWork s (placeVerify id x s) := by
  rw [placeVerify_id]; exact withChan_work s _

theorem placeConfirm_eq (x : Subject) : placeConfirm x s =
    { s with chan.confirm := if !s.runs || x ∈ s.chan.confirm then s.chan.confirm else s.chan.confirm ++ [x] } := by
  unfold placeConfirm
  by_cases h : (!s.runs || decide (x ∈ s.chan.confirm)) = true <;> simp_all

theorem placeConfirm_work (x : Subject) : LineWork s (placeConfirm x s) := by
  rw [placeConfirm_eq]; exact withChan_work s _

theorem withdrawVerify_work (x : Subject) : LineWork s (withdrawVerify x s) := withChan_work s _

theorem withdrawConfirm_work (x : Subject) : LineWork s (withdrawConfirm x s) := withChan_work s _

theorem complete_work (r : Requester) (o : CompletionOutcome) : LineWork s (complete r o s) := by
  unfold complete; dsimp only; split
  · exact setPort_work s _ _
  · exact .refl s

/-- A completion keeps the outstanding count of every port (R175). -/
theorem outstanding_complete (r : Requester) (o : CompletionOutcome) (p : Port) :
    ((complete r o s).port p).outstanding = (s.port p).outstanding := by
  unfold complete; dsimp only; split
  · next h =>
    by_cases hp : p = r.port
    · subst hp
      simp only [port_setPort_same, PortState.outstanding, List.length_append, List.length_singleton]
      omega
    · simp [port_setPort_ne, hp]
  · rfl

theorem completeIfAny_work (r : Option Requester) (o : CompletionOutcome) : LineWork s (completeIfAny r o s) := by
  cases r with
  | none => exact .refl s
  | some r => exact complete_work s r o

theorem endWaiting_work (o : CompletionOutcome) : LineWork s (endWaiting n o s) :=
  (setLine_work s n _).trans (completeIfAny_work _ _ _)

/-! ### Learning, orders and moves -/

theorem endLearn_work (o : CompletionOutcome) : LineWork s (endLearn o s) := by
  unfold endLearn
  split
  · exact .refl s
  · exact ((setLine_work s _ _).trans (withChan_work _ _)).trans (complete_work _ _ _)

theorem abortLearnOf_work : LineWork s (abortLearnOf n s) := by
  unfold abortLearnOf
  split
  · split
    · exact endLearn_work s _
    · exact .refl s
  · exact .refl s

theorem orderSelector_work (pos : Selector) : LineWork s (orderSelector n pos s) := by
  unfold orderSelector; dsimp only
  split
  · exact .refl s
  · exact ((setLine_work s n _).trans (withMove_work _ _)).trans (abortLearnOf_work _ n)

/-- The end of a learn job changes no line's record but for the accumulator (R58). -/
theorem line_endLearn (o : CompletionOutcome) (m : LineNo) :
    (endLearn o s).line m = s.line m ∨ (endLearn o s).line m = { s.line m with learn := none } := by
  unfold endLearn
  split
  · exact .inl rfl
  · next j _ =>
    have key : ∀ (t : State) (r : Requester), (complete r o t).line m = t.line m := by
      intro t r; unfold complete; dsimp only; split <;> rfl
    rw [key]
    change (s.setLine j.line { s.line j.line with learn := none }).line m = _ ∨
      (s.setLine j.line { s.line j.line with learn := none }).line m = _
    by_cases h : m = j.line
    · subst h; exact .inr (by simp)
    · exact .inl (line_setLine_ne s _ _ _ h)

theorem line_abortLearnOf (m : LineNo) :
    (abortLearnOf n s).line m = s.line m ∨ (abortLearnOf n s).line m = { s.line m with learn := none } := by
  unfold abortLearnOf
  split
  · split
    · exact line_endLearn s _ m
    · exact .inl rfl
  · exact .inl rfl

/-- An order for the position held changes nothing (R5). -/
theorem orderSelector_held {pos : Selector} (h : (s.line n).selector = pos) : orderSelector n pos s = s := by
  simp [orderSelector, h]

/-- The line record right after an order for a new position (R5). -/
def Line.ordered (l : Line) (pos : Selector) : Line :=
  { l with selector := pos, relayLeft := some relayMs, epoch := l.epoch + 1 }

/-- An order for a new position (R5). -/
theorem orderSelector_new {pos : Selector} (h : (s.line n).selector ≠ pos) :
    orderSelector n pos s =
      abortLearnOf n { s.setLine n ((s.line n).ordered pos) with move := s.move.map (·.filter (· ≠ n)) } := by
  unfold orderSelector
  simp only [h, ↓reduceIte]
  rfl

/-- What an order leaves of a line (R5): the position, a relay operation and the next epoch of the line ordered, when the
position is new; everything else but the learn accumulator as it stood. -/
theorem line_orderSelector (pos : Selector) (m : LineNo) :
    ∃ a, (orderSelector n pos s).line m =
      { if m = n ∧ (s.line n).selector ≠ pos then (s.line m).ordered pos else s.line m with learn := a } := by
  by_cases h : (s.line n).selector = pos
  · exact ⟨(s.line m).learn, by rw [orderSelector_held s n h]; simp [h]⟩
  · have e : ∀ (t : State), t.line m = (if m = n then (s.line m).ordered pos else s.line m) →
        ∃ a, (abortLearnOf n t).line m =
          { if m = n ∧ (s.line n).selector ≠ pos then (s.line m).ordered pos else s.line m with learn := a } := by
      intro t ht
      obtain e | e := line_abortLearnOf t n m
      · exact ⟨(t.line m).learn, by rw [e, ht]; simp [h]⟩
      · exact ⟨none, by rw [e, ht]; simp [h]⟩
    rw [orderSelector_new s n h]
    apply e
    change (s.setLine n ((s.line n).ordered pos)).line m = _
    rw [line_setLine]
    by_cases hm : m = n
    · subst hm; simp
    · simp [hm]

theorem moveLine_work (y : AmpNo) : LineWork s (moveLine y s n) := by
  unfold moveLine; dsimp only
  split
  · exact (setLine_work s n _).trans (orderSelector_work _ n _)
  · exact setLine_work s n _

theorem moveLines_work (x y : AmpNo) : LineWork s (moveLines x y s) :=
  (foldl_work _ (fun s n => moveLine_work s n y) _ s).trans (withMove_work _ _)

/-! ### Timers, class changes, isolation, probes -/

theorem startRetry_work : LineWork s (startRetry n s) := by
  unfold startRetry; dsimp only; split
  · exact setLine_work s n _
  · exact .refl s

theorem clearClass_same (c : LineClass) : SameButTable s (clearClass n c s) := by
  unfold clearClass; split
  · exact clear_same s _ _
  · exact .refl s

theorem raiseClass_same (c : LineClass) : SameButTable s (raiseClass n c s) := by
  unfold raiseClass; split
  · split
    · exact .refl s
    · exact raise_same s _ _
  · exact .refl s

theorem sendClassChange_same (old new : LineClass) : SameButTable s (sendClassChange n old new s) :=
  (clearClass_same s n old).trans (raiseClass_same _ n new)

theorem isolateProtectively_work (old : LineClass) : LineWork s (isolateProtectively n old s) :=
  ((((orderSelector_work s n _).trans (setLine_work _ n _)).trans (withdrawConfirm_work _ _)).trans
    (sendClassChange_same _ n _ _).lineWork).trans (startRetry_work _ n)

theorem confirmedChange_work (old : LineClass) : LineWork s (confirmedChange n old s) := by
  unfold confirmedChange; dsimp only; split
  · exact isolateProtectively_work s n old
  · exact (sendClassChange_same s n _ _).lineWork

theorem endProbe_work (c : IsolationCause) : LineWork s (endProbe n c s) :=
  (orderSelector_work s n _).trans (setLine_work _ n _)

theorem dropDebounce_work : LineWork s (dropDebounce n s) := setLine_work s n _

/-! ### Readings -/

theorem raiseBlind_same : SameButTable s (raiseBlind n s) := by
  unfold raiseBlind; split
  · exact raise_same s _ _
  · exact .refl s

theorem maskedStep_work : LineWork s (maskedStep n s) := (setLine_work s n _).trans (raiseBlind_same _ n).lineWork

theorem usableStep_work : LineWork s (usableStep n s) := by
  unfold usableStep; split
  · exact (clear_same s _ _).lineWork.trans (setLine_work _ n _)
  · exact .refl s

theorem placeLineIfCounting_work : LineWork s (placeLineIfCounting n s) := by
  unfold placeLineIfCounting; split
  · exact placeConfirm_work s _
  · exact .refl s

theorem classificationReading_work (vc ic : Code) (ov : Bool) : LineWork s (classificationReading n vc ic ov s) := by
  unfold classificationReading
  split
  · exact .refl s
  · split
    · exact (maskedStep_work s n).trans (placeLineIfCounting_work _ n)
    · dsimp only
      refine .trans ?_ (placeLineIfCounting_work _ n)
      refine .trans ?_ (usableStep_work _ n)
      split
      · exact (setLine_work s n _).trans (confirmedChange_work _ n _)
      · exact setLine_work s n _

theorem probeSucceeds_work : LineWork s (probeSucceeds n s) := by
  unfold probeSucceeds; dsimp only
  refine .trans ?_ (endWaiting_work _ n _)
  refine .trans ?_ (dropDebounce_work _ n)
  refine .trans ?_ (clearClass_same _ n _).lineWork
  exact (orderSelector_work s n _).trans (setLine_work _ n _)

theorem probeFails_work : LineWork s (probeFails n s) := by
  unfold probeFails; dsimp only
  have body : ∀ t : State, LineWork t
      (if (t.line n).confirmed = .short then t
        else sendClassChange n (t.line n).confirmed .short (t.setLine n { t.line n with confirmed := .short })) := by
    intro t; split
    · exact .refl t
    · exact (setLine_work t n _).trans (sendClassChange_same _ n _ _).lineWork
  have tail : ∀ t : State, LineWork t
      (if (t.line n).cfg.retryLimit ≤ (t.line n).retryCount then
        t.setLine n { t.line n with state := .locked, cause := .lockout, timer := .idle }
        else startRetry n t) := by
    intro t; split
    · exact setLine_work t n _
    · exact startRetry_work t n
  refine .trans ?_ (tail _)
  refine .trans ?_ (endWaiting_work _ n _)
  refine .trans ?_ (dropDebounce_work _ n)
  refine .trans ?_ (body _)
  exact (endProbe_work s n _).trans (setLine_work _ n _)

theorem probeReading_id_work (vc ic : Code) (ov : Bool) : LineWork s (probeReading id n vc ic ov s) := by
  unfold probeReading
  split
  · exact .refl s
  · split
    · exact (maskedStep_work s n).trans (placeVerify_id_work _ _)
    · dsimp only
      split
      · exact ((setLine_work s n _).trans (usableStep_work _ n)).trans (probeFails_work _ n)
      · refine .trans ((setLine_work s n ((s.line n).measured vc ic)).trans (usableStep_work _ n)) ?_
        unfold probePasses; dsimp only; split
        · exact (setLine_work _ n _).trans (probeSucceeds_work _ n)
        · exact (setLine_work _ n _).trans (placeVerify_id_work _ _)

theorem setLearned_work (z : Nat) : LineWork s (setLearned n z s) :=
  (((setLine_work s n _).trans (dropDebounce_work _ n)).trans (withdrawConfirm_work _ _)).trans
    (clear_same _ _ _).lineWork

theorem learnSample_work (vc ic : Code) (ov : Bool) : LineWork s (learnSample n vc ic ov s) := by
  unfold learnSample; dsimp only
  split
  · exact endLearn_work s _
  · split
    · exact endLearn_work s _
    · split
      · exact setLine_work s n _
      · split
        · exact (setLine_work s n _).trans (endLearn_work _ _)
        · exact ((setLine_work s n _).trans (setLearned_work _ n _)).trans (endLearn_work _ _)

theorem sendEarth_same : SameButTable s (sendEarth n s) := by
  unfold sendEarth; split
  · split
    · exact .refl s
    · exact raise_same s _ _
  · exact clear_same s _ _

theorem earthReading_work (lc : Code) (trip : Bool) : LineWork s (earthReading n lc trip s) := by
  unfold earthReading
  simp only
  generalize (if isTrip (s.line n).cfg.threshold (effectiveLc lc trip) trip = true then EarthState.leak else .normal) = x
  split
  · exact .refl s
  · split
    · exact (setLine_work s n _).trans (sendEarth_same _ n).lineWork
    · exact setLine_work s n _

theorem heldRaises_same : SameButTable s (heldRaises s n) := by
  unfold heldRaises; dsimp only
  split
  · exact .refl s
  · refine .trans ?_ (raiseBlind_same _ n)
    split
    · exact raiseClass_same s n _
    · exact .refl s

theorem heldEarth_same : SameButTable s (heldEarth s n) := by
  unfold heldEarth; dsimp only
  split
  · exact raise_same s _ _
  · exact .refl s

end Sys2Proof.Machine
end

