-- ==== Sys2Proof/Laws/Units.lean ====
section
/-! SUPPORT. What the changeover unit, the amplifier supervisor, the channel and mode control leave as it stands whatever
they do: the store, the queue of commands, and mode control but for the mode and the settle count. -/

namespace Sys2Proof.Machine

/-- The work of the blocks: the store and the queue stand, and of mode control all but the mode and the settle count. -/
structure BlockWork (s t : State) : Prop where
  store : t.store = s.store
  pending : t.pending = s.pending
  emergInput : t.mc.emergInput = s.mc.emergInput
  flagA : t.mc.flagA = s.mc.flagA
  flagB : t.mc.flagB = s.mc.flagB
  supply : t.mc.supply = s.mc.supply
  cause : t.mc.cause = s.mc.cause
  resetInForce : t.mc.resetInForce = s.mc.resetInForce
  sys : t.mc.sys = s.mc.sys

theorem BlockWork.refl (s : State) : BlockWork s s := ⟨rfl, rfl, rfl, rfl, rfl, rfl, rfl, rfl, rfl⟩

theorem BlockWork.trans {s t u : State} (h : BlockWork s t) (g : BlockWork t u) : BlockWork s u :=
  ⟨g.store.trans h.store, g.pending.trans h.pending, g.emergInput.trans h.emergInput, g.flagA.trans h.flagA,
    g.flagB.trans h.flagB, g.supply.trans h.supply, g.cause.trans h.cause, g.resetInForce.trans h.resetInForce,
    g.sys.trans h.sys⟩

theorem LineWork.block {s t : State} (h : LineWork s t) : BlockWork s t :=
  ⟨h.store, h.pending, by rw [h.mc], by rw [h.mc], by rw [h.mc], by rw [h.mc], by rw [h.mc], by rw [h.mc],
    by rw [h.mc]⟩

theorem SameButTable.block {s t : State} (h : SameButTable s t) : BlockWork s t := h.lineWork.block

theorem SameButPorts.block {s t : State} (h : SameButPorts s t) : BlockWork s t := h.table.block

/-- Emergency is in force after the work of the blocks just when it was before (R148). -/
theorem BlockWork.emergency {s t : State} (h : BlockWork s t) : t.emergency = s.emergency := by
  simp only [State.emergency, h.emergInput, h.flagA, h.flagB]

theorem foldl_block {α : Type} (f : State → α → State) (h : ∀ s a, BlockWork s (f s a)) (l : List α) (s : State) :
    BlockWork s (l.foldl f s) := by
  induction l generalizing s with
  | nil => exact .refl s
  | cons a l ih => exact (h s a).trans (ih (f s a))

variable (s : State)

theorem withCo_block (c : Changeover) : BlockWork s { s with co := c } := ⟨rfl, rfl, rfl, rfl, rfl, rfl, rfl, rfl, rfl⟩
theorem setAmp_block (k : AmpNo) (x : Amp) : BlockWork s (s.setAmp k x) := ⟨rfl, rfl, rfl, rfl, rfl, rfl, rfl, rfl, rfl⟩
theorem setLine_block (n : LineNo) (l : Line) : BlockWork s (s.setLine n l) := (setLine_work s n l).block
theorem withMove_block (m : Option (List LineNo)) : BlockWork s { s with move := m } := (withMove_work s m).block
theorem withChan_block (c : Channel) : BlockWork s { s with chan := c } := (withChan_work s c).block

/-! ### Amplifier states, the entry to STANDBY -/

theorem setAmpState_block (k : AmpNo) (st : AmpState) : BlockWork s (setAmpState k st s) := by
  unfold setAmpState; dsimp only; split
  · exact .refl s
  · exact setAmp_block s k _

/-- A change of state moves the stamp by one; the state held already moves nothing (R73). -/
theorem amp_setAmpState (k j : AmpNo) (st : AmpState) : (setAmpState k st s).amp j =
    if j = k ∧ (s.amp k).state ≠ st then { s.amp k with state := st, stamp := (s.amp k).stamp + 1 } else s.amp j := by
  unfold setAmpState; dsimp only
  by_cases h : (s.amp k).state = st
  · simp [h]
  · simp only [h, ↓reduceIte, ne_eq, not_false_eq_true, and_true]
    exact amp_setAmp s k j _

theorem dropCover_block (k : AmpNo) : BlockWork s (dropCover k s) := setAmp_block s k _

theorem dropCovered_block (k : AmpNo) : BlockWork s (dropCovered k s) := setAmp_block s k _

theorem freeStandby_block (x d : AmpNo) : BlockWork s (freeStandby x d s) := by
  unfold freeStandby; split
  · exact (setAmpState_block s x _).trans (dropCovered_block _ x)
  · exact .refl s

theorem recordVerifyFail_block (k : AmpNo) (ac : Code) (prot : Bool) : BlockWork s (recordVerifyFail k ac prot s) :=
  ((setAmp_block s k _).trans (withdrawConfirm_work _ _).block).trans (raise_same _ _ _).block

theorem enterStandby_block : BlockWork s (enterStandby s) := by
  unfold enterStandby
  refine .trans ?_ (signalAll_same _).block
  exact ⟨rfl, rfl, rfl, rfl, rfl, rfl, rfl, rfl, rfl⟩

theorem checkStopped_block : BlockWork s (checkStopped s) := by
  unfold checkStopped; split
  · exact enterStandby_block s
  · exact .refl s

theorem raiseNoCover_same (d : AmpNo) : SameButTable s (raiseNoCover d s) := by
  unfold raiseNoCover; split
  · split
    · exact raise_same s _ _
    · exact .refl s
  · exact .refl s

section Changeover
variable {arr : Arrive} (ha : ∀ s, BlockWork s (arr s))
include ha

theorem placeVerify_block (x : Subject) (s : State) : BlockWork s (placeVerify arr x s) := by
  unfold placeVerify; split
  · exact .refl s
  · exact (withChan_block s _).trans (ha _)

theorem beginVerify_block (o : Operation) (s : State) : BlockWork s (beginVerify arr o s) :=
  (withCo_block s _).trans (placeVerify_block ha _ _)

theorem afterGrantMove_block (o : Operation) (s : State) : BlockWork s (afterGrantMove arr o s) := by
  unfold afterGrantMove; split
  · exact (withMove_block s _).trans (beginVerify_block ha o _)
  · exact .refl s

theorem grantCover_block (e : CoEntry) (x : AmpNo) (s : State) : BlockWork s (grantCover arr e x s) := by
  unfold grantCover; dsimp only
  refine .trans ?_ (afterGrantMove_block ha _ _)
  refine .trans ?_ (setAmp_block _ _ _)
  refine .trans ?_ (moveLines_work _ _ _).block
  refine .trans ?_ (clear_same _ _ _).block
  exact ((withCo_block s _).trans (setAmpState_block _ _ _)).trans (setAmp_block _ _ _)

theorem grantReturn_block (e : CoEntry) (s : State) : BlockWork s (grantReturn arr e s) := by
  unfold grantReturn; dsimp only
  refine .trans ?_ (afterGrantMove_block ha _ _)
  refine .trans ?_ (setAmp_block _ _ _)
  exact (withCo_block s _).trans (moveLines_work _ _ _).block

theorem grantAttempt_block (s : State) : BlockWork s (grantAttempt arr s) := by
  unfold grantAttempt; split
  · exact .refl s
  · split
    · unfold grantEntry; split
      · split
        · exact grantCover_block ha _ _ s
        · exact .refl s
      · exact grantReturn_block ha _ s
    · exact .refl s

theorem endOperation_block (o : Option CompletionOutcome) {rejoin : State → State}
    (hr : ∀ s, BlockWork s (rejoin s)) (s : State) : BlockWork s (endOperation arr o rejoin s) := by
  have tail : ∀ t : State, BlockWork t (if t.mc.mode = .stopping then checkStopped t else grantAttempt arr t) := by
    intro t; split
    · exact checkStopped_block t
    · exact grantAttempt_block ha t
  unfold endOperation; dsimp only
  refine .trans ?_ (tail _)
  refine .trans ?_ (hr _)
  refine .trans ?_ (withCo_block _ _)
  split
  · exact (completeIfAny_work s _ _).block
  · exact .refl s

omit ha in
theorem rejoinAutoCover_block (d : AmpNo) (q : Word) (r : Option Requester) (s : State) :
    BlockWork s (rejoinAutoCover d q r s) := (withCo_block s _).trans (raiseNoCover_same _ d).block

omit ha in
theorem rejoinFailedCover_block (o : Operation) (s : State) : BlockWork s (rejoinFailedCover o s) := by
  unfold rejoinFailedCover; dsimp only
  split
  · exact rejoinAutoCover_block _ _ _ s
  · exact ((withCo_block s _).trans (setAmpState_block _ _ _)).trans (clear_same _ _ _).block
  · exact (setAmpState_block s _ _).trans (clear_same _ _ _).block
  · exact withCo_block s _
  · exact withCo_block s _
  · exact .refl s

theorem moveDone_block (s : State) : BlockWork s (moveDone arr s) := by
  unfold moveDone; split
  · exact .refl s
  · split
    · exact beginVerify_block ha _ s
    · exact .refl s
    · exact endOperation_block ha _ (rejoinFailedCover_block _) s
    · refine endOperation_block ha _ (fun t => ?_) s
      split
      · exact rejoinAutoCover_block _ _ _ t
      · exact .refl t

theorem reportMove_block (s : State) : BlockWork s (reportMove arr s) := by
  unfold reportMove; split
  · exact (withMove_block s _).trans (moveDone_block ha _)
  · exact .refl s

theorem moveBack_block (d x y : AmpNo) (s : State) : BlockWork s (moveBack arr d x y s) := by
  unfold moveBack
  refine .trans ?_ (reportMove_block ha _)
  exact ((moveLines_work s x y).block.trans (setAmp_block _ _ _)).trans (withCo_block _ _)

theorem takeVerify_block (k : AmpNo) (ac : Code) (ov prot : Bool) (s : State) :
    BlockWork s (takeVerify arr k ac ov prot s) := by
  unfold takeVerify; split
  · exact .refl s
  · split
    · exact .refl s
    · split
      · exact placeVerify_block ha _ s
      · dsimp only
        split
        · split
          · unfold coverPass; dsimp only
            refine .trans ?_ (endOperation_block ha _ (fun t => .refl t) _)
            refine .trans ?_ (setAmp_block _ _ _)
            split
            · exact setAmpState_block s _ _
            · exact setAmpState_block s _ _
            · exact setAmpState_block s _ _
            · exact .refl s
          · unfold coverFail; dsimp only
            refine .trans ?_ (moveBack_block ha _ _ _ _)
            refine .trans ?_ (recordVerifyFail_block _ _ _ _)
            exact (setAmpState_block s _ _).trans (setAmp_block _ _ _)
        · split
          · unfold returnPass; dsimp only
            refine .trans ?_ (endOperation_block ha _ (fun t => .refl t) _)
            refine .trans ?_ (freeStandby_block _ _ _)
            exact (setAmpState_block s _ _).trans (dropCover_block _ _)
          · unfold returnFail; dsimp only
            split
            · refine .trans ?_ (moveBack_block ha _ _ _ _)
              split
              · exact (recordVerifyFail_block s _ _ _).trans (setAmpState_block _ _ _)
              · exact recordVerifyFail_block s _ _ _
            · refine .trans ?_ (endOperation_block ha _ (fun t => rejoinAutoCover_block _ _ _ t) _)
              exact ((recordVerifyFail_block s _ _ _).trans (setAmpState_block _ _ _)).trans (setAmp_block _ _ _)

theorem afterRequest_block (d : AmpNo) (s : State) : BlockWork s (afterRequest arr d s) :=
  (raiseNoCover_same s d).block.trans (grantAttempt_block ha _)

omit ha in
theorem replaceEntry_block (e : CoEntry) (s : State) : BlockWork s (replaceEntry e s) :=
  (withCo_block s _).trans (withCo_block _ _)

omit ha in
theorem seqOr_block (q : Option Word) (s : State) : BlockWork s (seqOr q s).2 := by
  cases q with
  | none => exact withCo_block s _
  | some w => exact .refl s

theorem askAutoCover_block (d : AmpNo) (q : Option Word) (s : State) : BlockWork s (askAutoCover arr d q s) := by
  unfold askAutoCover; split
  · exact withCo_block s _
  · split
    · exact (replaceEntry_block _ s).trans (afterRequest_block ha d _)
    · exact ((seqOr_block q s).trans (withCo_block _ _)).trans (afterRequest_block ha d _)

theorem askAutoReturn_block (d : AmpNo) (q : Option Word) (s : State) : BlockWork s (askAutoReturn arr d q s) := by
  unfold askAutoReturn; split
  · exact .refl s
  · split
    · exact grantAttempt_block ha s
    · exact ((seqOr_block q s).trans (withCo_block _ _)).trans (afterRequest_block ha d _)

theorem confirmFail_block (k : AmpNo) (snap : Option Snapshot) (s : State) : BlockWork s (confirmFail arr k snap s) := by
  unfold confirmFail; dsimp only
  refine .trans (raise_same s (.ampFail k) snap).block ?_
  split
  · unfold dutyFails; split
    · exact (setAmpState_block _ _ _).trans (askAutoCover_block ha _ _ _)
    · exact (setAmpState_block _ _ _).trans (askAutoCover_block ha _ _ _)
    · exact setAmpState_block _ _ _
    · split
      · split
        · exact (replaceEntry_block _ _).trans (afterRequest_block ha _ _)
        · exact .refl _
      · exact .refl _
    · exact .refl _
  · unfold standbyFails; dsimp only
    refine .trans ((setAmpState_block _ k .faulty).trans (dropCovered_block _ k)) ?_
    split
    · exact .refl _
    · unfold coverLostInFlight
      exact (withdrawVerify_work _ _).block.trans (moveBack_block ha _ _ _ _)
    · unfold loseCover; dsimp only
      split
      · exact ((dropCover_block _ _).trans (setAmpState_block _ _ _)).trans (askAutoCover_block ha _ _ _)
      · exact ((dropCover_block _ _).trans (setAmpState_block _ _ _)).trans (askAutoReturn_block ha _ _ _)
      · exact dropCover_block _ _

theorem confirmNormal_block (k : AmpNo) (snap : Option Snapshot) (s : State) :
    BlockWork s (confirmNormal arr k snap s) := by
  unfold confirmNormal; dsimp only
  refine .trans (clear_same s (.ampFail k) snap).block ?_
  split
  · exact (setAmpState_block _ _ _).trans (grantAttempt_block ha _)
  · split
    · exact .refl _
    · split
      · split
        · unfold recoverQueued; dsimp only
          refine .trans ?_ (afterRequest_block ha _ _)
          refine .trans ?_ (clear_same _ _ _).block
          split
          · split
            · exact (setAmpState_block _ _ _).trans (replaceEntry_block _ _)
            · exact (setAmpState_block _ _ _).trans (withCo_block _ _)
          · exact replaceEntry_block _ _
        · exact .refl _
      · exact .refl _
  · exact .refl _

omit ha in
theorem placeAmpIfCounting_block (k : AmpNo) (s : State) : BlockWork s (placeAmpIfCounting k s) := by
  unfold placeAmpIfCounting; split
  · exact (placeConfirm_work s _).block
  · exact .refl s

theorem ampReading_block (k : AmpNo) (ac : Code) (ov prot : Bool) (s : State) :
    BlockWork s (ampReading arr k ac ov prot s) := by
  have body : ∀ (t : State) (d : Debounce Condition) (snap : Option Snapshot), BlockWork t
      (if d.changed then
        match d.confirmed with
        | .fail => confirmFail arr k snap t
        | .normal => confirmNormal arr k snap t
      else stepSuspect k t) := by
    intro t d snap
    split
    · split
      · exact confirmFail_block ha k snap t
      · exact confirmNormal_block ha k snap t
    · unfold stepSuspect; dsimp only
      split
      · exact setAmpState_block t _ _
      · split
        · exact setAmpState_block t _ _
        · exact .refl t
  unfold ampReading; dsimp only
  by_cases h : (s.amp k).state = .disabled
  · simp only [h, ↓reduceIte]; exact .refl s
  · simp only [h, ↓reduceIte]
    by_cases ho : ov = true
    · simp only [ho, ↓reduceIte]; exact placeAmpIfCounting_block k s
    · simp only [ho, Bool.false_eq_true, ↓reduceIte]
      exact ((setAmp_block s k _).trans (body _ _ _)).trans (placeAmpIfCounting_block k _)

end Changeover

/-! ### The channel -/

theorem startRound_block : BlockWork s (startRound s) := withChan_block s _

theorem enterActive_block : BlockWork s (enterActive s) := by
  unfold enterActive; dsimp only
  refine .trans ?_ (grantAttempt_block (fun s => .refl s) _)
  refine .trans ?_ (foldl_sameButTable _ (fun s n => heldEarth_same s n) _ _).block
  refine .trans ?_ (foldl_sameButTable _ (fun s n => heldRaises_same s n) _ _).block
  exact ⟨rfl, rfl, rfl, rfl, rfl, rfl, rfl, rfl, rfl⟩

theorem countRound_block : BlockWork s (countRound s) := by
  have head : BlockWork s { s with mc.settleCount := min 15 (s.mc.settleCount + 1) } :=
    ⟨rfl, rfl, rfl, rfl, rfl, rfl, rfl, rfl, rfl⟩
  unfold countRound; split
  · dsimp only; split
    · exact head.trans (enterActive_block _)
    · exact head
  · exact .refl s

theorem endRound_block : BlockWork s (endRound s) := by
  have tail : ∀ t : State, BlockWork t (if t.runs then startRound t else t) := by
    intro t; split
    · exact startRound_block t
    · exact .refl t
  unfold endRound; dsimp only
  refine .trans ?_ (tail _)
  refine .trans ?_ (signalAll_same _).block
  exact (withChan_block s _).trans (countRound_block _)

theorem grant_block (t : Target) (c : GrantClass) (i : Option Nat) : BlockWork s (grant t c i s) := withChan_block s _

theorem takeSlot_block (r : Round) (pos : Nat) (t : Target) : BlockWork s (takeSlot r pos t s) := by
  unfold takeSlot; split
  · exact withChan_block s _
  · exact (withChan_block s _).trans (grant_block _ _ _ _)

theorem tryVerify_block : BlockWork s (tryVerify s) := by
  unfold tryVerify; dsimp only; split
  · exact (withChan_block s _).trans (grant_block _ _ _ _)
  · exact withChan_block s _

theorem tryClass_block (c : RotClass) : BlockWork s (tryClass c s) := by
  cases c with
  | confirm =>
    unfold tryClass tryConfirm; dsimp only; split
    · exact ((withChan_block s _).trans (withChan_block _ _)).trans (grant_block _ _ _ _)
    · exact withChan_block s _
  | learn =>
    unfold tryClass tryLearn; dsimp only; split
    · exact .refl s
    · split
      · exact (withChan_block s _).trans (grant_block _ _ _ _)
      · exact .refl s
  | scan =>
    unfold tryClass tryScan; dsimp only; split
    · exact .refl s
    · split
      · exact .refl s
      · split
        · exact takeSlot_block s _ _ _
        · refine .trans (endRound_block s) ?_
          unfold tryFirstSlot; split
          · exact .refl _
          · split
            · exact takeSlot_block _ _ _ _
            · exact .refl _

theorem firstGrant_block (l : List (State → State)) (h : ∀ f ∈ l, ∀ s, BlockWork s (f s)) (s : State) :
    BlockWork s (firstGrant l s) := by
  induction l generalizing s with
  | nil => exact .refl s
  | cons f fs ih =>
    unfold firstGrant; dsimp only
    split
    · exact h f (by simp) s
    · exact (h f (by simp) s).trans (ih (fun g hg => h g (by simp [hg])) _)

theorem searchOnce_block : BlockWork s (searchOnce s) := by
  refine firstGrant_block _ (fun f hf => ?_) s
  rcases List.mem_cons.mp hf with rfl | hf
  · exact tryVerify_block
  · obtain ⟨c, -, rfl⟩ := List.mem_map.mp hf
    exact fun s => tryClass_block s c

theorem searchRunning_block : BlockWork s (searchRunning s) := by
  unfold searchRunning; dsimp only; split
  · exact (searchOnce_block s).trans (searchOnce_block _)
  · exact searchOnce_block s

theorem channelFree_block : BlockWork s (channelFree s) := by
  have tail : ∀ t : State, BlockWork t
      (match t.mc.mode with
        | .settling | .active => searchRunning t
        | .stopping =>
          if (tryVerify t).chan.inFlight.isNone then checkStopped (tryVerify t) else tryVerify t
        | .loading | .standby => t) := by
    intro t
    split
    · exact searchRunning_block t
    · exact searchRunning_block t
    · split
      · exact (tryVerify_block t).trans (checkStopped_block _)
      · exact tryVerify_block t
    · exact .refl t
    · exact .refl t
  unfold channelFree
  exact (withChan_block s _).trans (tail _)

theorem arrival_block : BlockWork s (arrival s) := by
  unfold arrival; split
  · exact .refl s
  · exact channelFree_block s

theorem deliver_block (m : Measurement) (r : Reading) : BlockWork s (deliver m r s) := by
  unfold deliver; split
  · unfold deliverLine; split
    · exact (probeReading_id_work s _ _ _ _).block
    · split
      · exact .refl s
      · exact (learnSample_work s _ _ _ _).block
    · exact (classificationReading_work s _ _ _ _).block
    · exact (classificationReading_work s _ _ _ _).block
  · exact (earthReading_work s _ _ _).block
  · split
    · exact takeVerify_block (fun s => .refl s) _ _ _ _ s
    · exact ampReading_block (fun s => .refl s) _ _ _ _ s
  · exact .refl s

theorem placeStale_block (m : Measurement) : BlockWork s (placeStale m s) := by
  have conf : ∀ x, BlockWork s (placeConfirm x s) := fun x => (placeConfirm_work s x).block
  have ver : ∀ x, BlockWork s (placeVerify id x s) := fun x => (placeVerify_id_work s x).block
  unfold placeStale; split
  · split
    · exact conf _
    · exact .refl s
  · split
    · exact conf _
    · exact .refl s
  · exact placeAmpIfCounting_block _ s
  · exact placeAmpIfCounting_block _ s
  · split
    · exact ver _
    · exact .refl s
  · split
    · exact ver _
    · exact .refl s
  · exact .refl s

theorem completeMeasurement_block (m : Measurement) (r : Reading) : BlockWork s (completeMeasurement m r s) := by
  unfold completeMeasurement; dsimp only
  refine .trans ?_ (channelFree_block _)
  have head : BlockWork s (if s.isStale m then placeStale m s else deliver m r s) := by
    split
    · exact placeStale_block s m
    · exact deliver_block s m r
  have tail : ∀ t : State, BlockWork t (if t.completesRound m then endRound t else t) := by
    intro t; split
    · exact endRound_block t
    · exact .refl t
  exact (head.trans (reportMove_block (arr := id) (fun s => .refl s) _)).trans (tail _)

/-! ### Mode control -/

theorem startProbe_block {arr : Arrive} (ha : ∀ s, BlockWork s (arr s)) (n : LineNo) (s : State) :
    BlockWork s (startProbe arr n s) :=
  ((orderSelector_work s n _).block.trans (setLine_block _ n _)).trans (placeVerify_block ha _ _)

theorem startDueProbes_block {arr : Arrive} (ha : ∀ s, BlockWork s (arr s)) (s : State) :
    BlockWork s (startDueProbes arr s) :=
  foldl_block _ (fun s n => by split; exacts [startProbe_block ha n s, .refl s]) _ s

theorem enterSettling_block (b : Bool) : BlockWork s (enterSettling b s) := by
  have head : BlockWork s { s with mc.mode := .settling, mc.settleCount := 0 } :=
    ⟨rfl, rfl, rfl, rfl, rfl, rfl, rfl, rfl, rfl⟩
  unfold enterSettling; dsimp only
  refine .trans ?_ (arrival_block _)
  refine .trans ?_ (startRound_block _)
  refine .trans ?_ (grantAttempt_block (fun s => .refl s) _)
  have due : ∀ t : State, BlockWork t (if t.emergency then t else startDueProbes id t) := by
    intro t; split
    · exact .refl t
    · exact startDueProbes_block (fun s => .refl s) t
  refine .trans ?_ (due _)
  refine .trans ?_ (mapLines_work _ _).block
  split
  · exact head.trans (mapLines_work _ _).block
  · exact head

theorem stopLines_work : LineWork s (stopLines s) := by
  unfold stopLines; dsimp only
  have probe : ∀ (t : State) (n : LineNo), LineWork t (stopProbe t n) := by
    intro t n
    unfold stopProbe; split
    · exact (((endProbe_work t n _).trans (withdrawVerify_work _ _)).trans (endWaiting_work _ n _)).trans
        (startRetry_work _ n)
    · exact .refl t
  exact ((endLearn_work s .learnAborted).trans (mapLines_work _ _)).trans (foldl_work _ probe _ _)

theorem enterStopping_block : BlockWork s (enterStopping s) := by
  unfold enterStopping; dsimp only
  refine .trans ?_ (checkStopped_block _)
  refine .trans ?_ (signalAll_same _).block
  refine .trans ?_ (reportMove_block arrival_block _)
  refine .trans ?_ (stopLines_work _).block
  exact ⟨rfl, rfl, rfl, rfl, rfl, rfl, rfl, rfl, rfl⟩

theorem endEmergency_block : BlockWork s (endEmergency s) := by
  unfold endEmergency; dsimp only
  refine .trans ?_ (grantAttempt_block arrival_block _)
  split
  · exact startDueProbes_block arrival_block s
  · exact .refl s

end Sys2Proof.Machine
end

