-- ==== Sys2Proof/Laws/Requests.lean ====
section
/-! SUPPORT. How a command is taken: the port interface's checks, the reply, and events; acceptance of a long request;
one step of a debounce; and the passing of a millisecond. -/

namespace Sys2Proof.Machine

variable (s : State) (q : Request) (p : Port) (payload : List Byte) (act : State → State × Reply)

/-! ### Requests and events -/

/-- While a reset is in force a request changes nothing (R172). -/
theorem takeRequest_inReset (h : s.mc.resetInForce.isSome) : takeRequest q p payload act s = .next s := by
  simp [takeRequest, h]

/-- A request refused by the port interface changes nothing but the port's reply (R173). -/
theorem takeRequest_refused (h : s.mc.resetInForce = none) {c : ReplyCode} (hc : portRefusal q p payload s = some c) :
    takeRequest q p payload act s = .next (s.answer p (bare c)) := by
  simp [takeRequest, h, hc]

/-- A request that passes the port interface is answered with its block's reply (R172, R173). -/
theorem takeRequest_passed (h : s.mc.resetInForce = none) (hc : portRefusal q p payload s = none) :
    takeRequest q p payload act s = .next ((act s).1.answer p (act s).2) := by
  simp [takeRequest, h, hc]

/-- What taking a request can do. -/
theorem takeRequest_cases :
    (s.mc.resetInForce.isSome ∧ takeRequest q p payload act s = .next s) ∨
    (∃ c, s.mc.resetInForce = none ∧ portRefusal q p payload s = some c ∧
      takeRequest q p payload act s = .next (s.answer p (bare c))) ∨
    (s.mc.resetInForce = none ∧ portRefusal q p payload s = none ∧
      takeRequest q p payload act s = .next ((act s).1.answer p (act s).2)) := by
  cases h : s.mc.resetInForce with
  | some r => exact .inl ⟨rfl, takeRequest_inReset s q p payload act (by simp [h])⟩
  | none =>
    cases hc : portRefusal q p payload s with
    | some c => exact .inr (.inl ⟨c, rfl, rfl, takeRequest_refused s q p payload act h hc⟩)
    | none => exact .inr (.inr ⟨rfl, rfl, takeRequest_passed s q p payload act h hc⟩)

/-- When the port interface lets a request through (R173). -/
theorem portRefusal_none : portRefusal q p payload s = none ↔
    payload.length ≤ 32 ∧ payload.length = q.payloadLen ∧ (p = .m → q.openToM = true) ∧
      (s.mc.mode = .loading → q.inLoading = true) ∧ (q.long = true → (s.port p).outstanding < outstandingLimit) := by
  unfold portRefusal
  constructor
  · intro h
    split at h; · cases h
    split at h; · cases h
    split at h; · cases h
    split at h; · cases h
    split at h; · cases h
    simp_all
  · rintro ⟨h1, h2, h3, h4, h5⟩
    have e1 : ¬32 < payload.length := by omega
    have e3 : ¬(p = .m ∧ (!q.openToM) = true) := by rintro ⟨hp, hq⟩; simp [h3 hp] at hq
    have e4 : ¬(s.mc.mode = .loading ∧ (!q.inLoading) = true) := by rintro ⟨hp, hq⟩; simp [h4 hp] at hq
    have e5 : ¬(q.long = true ∧ outstandingLimit ≤ (s.port p).outstanding) := by
      rintro ⟨hp, hq⟩; exact absurd (h5 hp) (by omega)
    rw [if_neg e1, if_neg (by simpa using h2), if_neg e3, if_neg e4, if_neg e5]

/-- What taking an event can do. -/
theorem takeEvent_cases (f : State → State) :
    (s.mc.resetInForce.isSome ∧ takeEvent f s = .next s) ∨ (s.mc.resetInForce = none ∧ takeEvent f s = .next (f s)) := by
  cases h : s.mc.resetInForce with
  | some r => exact .inl ⟨rfl, by simp [takeEvent, h]⟩
  | none => exact .inr ⟨rfl, by simp [takeEvent, h]⟩

/-- The acceptance of a long request raises the in-flight count of its port by one, changes nothing else and replies with
the outstanding count after it (R143, R174). -/
theorem accept_eq : accept p s =
    (s.setPort p { s.port p with inFlight := (s.port p).inFlight + 1 },
      ⟨.accepted, enc8 ((s.port p).outstanding + 1)⟩) := by
  unfold accept
  simp only [port_setPort_same, PortState.outstanding]
  rw [Nat.add_right_comm]

/-! ### Debounce -/

/-- One step of a debounce (R48, R65, R76): back to rest on the confirmed value; one more on the candidate, or a first
count, either short of the required count or a confirmation. -/
theorem debounce_cases {α : Type} [DecidableEq α] (confirmed : α) (candidate : Option α) (count : Nat)
    (required : α → Nat) (x : α) :
    (x = confirmed ∧ debounce confirmed candidate count required x = ⟨confirmed, none, 0, false⟩) ∨
    (x ≠ confirmed ∧ ∃ c, c = (if candidate = some x then count + 1 else 1) ∧
      ((required x ≤ c ∧ debounce confirmed candidate count required x = ⟨x, none, 0, true⟩) ∨
        (c < required x ∧ debounce confirmed candidate count required x = ⟨confirmed, some x, c, false⟩))) := by
  unfold debounce
  by_cases h : x = confirmed
  · exact .inl ⟨h, by simp [h]⟩
  · refine .inr ⟨h, _, rfl, ?_⟩
    simp only [h, ↓reduceIte]
    by_cases hc : required x ≤ (if candidate = some x then count + 1 else 1)
    · exact .inl ⟨hc, by simp [hc]⟩
    · exact .inr ⟨Nat.lt_of_not_le hc, by simp [hc]⟩

/-! ### The passing of a millisecond -/

/-- A millisecond touches only times that run (log entry 1). -/
theorem tick_frame : (tick s).amps = s.amps ∧ (tick s).co = s.co ∧ (tick s).move = s.move ∧ (tick s).faults = s.faults ∧
    (tick s).ports = s.ports ∧ (tick s).mc = s.mc ∧ (tick s).pending = s.pending := by
  unfold tick; split <;> exact ⟨rfl, rfl, rfl, rfl, rfl, rfl, rfl⟩

theorem line_mapLines (f : Line → Line) (n : LineNo) : (s.mapLines f).line n = f (s.line n) := by
  show (s.lines.map f)[n.val] = f s.lines[n.val]
  simp

end Sys2Proof.Machine
end

