-- ==== Sys2Proof/Laws/Moves.lean ====
section
/-! SUPPORT. What the changeover unit, the amplifier supervisor and the search of the channel leave of the line records:
everything but the current amplifier, the selector with its relay operation and epoch, the learn accumulator, and the
retry timer that the entry to STANDBY freezes. So no measured figure, no state and no count of a line changes in them. -/

namespace Sys2Proof.Machine

/-- A line record as it was, but for where it is connected, its learn accumulator and its timer. -/
def KeptLine (l m : Line) : Prop :=
  ∃ c x r e a t, m = { l with current := c, selector := x, relayLeft := r, epoch := e, learn := a, timer := t }

theorem KeptLine.refl (l : Line) : KeptLine l l := ⟨_, _, _, _, _, _, rfl⟩

theorem KeptLine.trans {l m k : Line} (h : KeptLine l m) (g : KeptLine m k) : KeptLine l k := by
  obtain ⟨_, _, _, _, _, _, rfl⟩ := h
  obtain ⟨_, _, _, _, _, _, rfl⟩ := g
  exact ⟨_, _, _, _, _, _, rfl⟩

/-- The same in the words of the statements. -/
theorem KeptLine.keptIn {l m : Line} (h : KeptLine l m) : l.keptIn m := by
  obtain ⟨_, _, _, _, _, _, rfl⟩ := h
  rfl

theorem KeptLine.of_keptIn {l m : Line} (h : l.keptIn m) : KeptLine l m := ⟨_, _, _, _, _, _, h⟩

/-- Every line record is kept in this sense. -/
def KeepsLines (s t : State) : Prop := ∀ n, KeptLine (s.line n) (t.line n)

theorem KeepsLines.refl (s : State) : KeepsLines s s := fun _ => .refl _

theorem KeepsLines.trans {s t u : State} (h : KeepsLines s t) (g : KeepsLines t u) : KeepsLines s u :=
  fun n => (h n).trans (g n)

theorem KeepsLines.of_lines {s t : State} (h : t.lines = s.lines) : KeepsLines s t := fun n => by
  rw [line_congr h]; exact .refl _

theorem SameButTable.keeps {s t : State} (h : SameButTable s t) : KeepsLines s t := .of_lines h.lines

theorem SameButPorts.keeps {s t : State} (h : SameButPorts s t) : KeepsLines s t := .of_lines h.lines

theorem foldl_keeps {α : Type} (f : State → α → State) (h : ∀ s a, KeepsLines s (f s a)) (l : List α) (s : State) :
    KeepsLines s (l.foldl f s) := by
  induction l generalizing s with
  | nil => exact .refl s
  | cons a l ih => exact (h s a).trans (ih (f s a))

variable (s : State)

theorem withCo_keeps (c : Changeover) : KeepsLines s { s with co := c } := .of_lines rfl
theorem setAmp_keeps (k : AmpNo) (x : Amp) : KeepsLines s (s.setAmp k x) := .of_lines rfl
theorem withMove_keeps (m : Option (List LineNo)) : KeepsLines s { s with move := m } := .of_lines rfl
theorem withChan_keeps (c : Channel) : KeepsLines s { s with chan := c } := .of_lines rfl
theorem withdrawConfirm_keeps (x : Subject) : KeepsLines s (withdrawConfirm x s) := withChan_keeps s _
theorem withdrawVerify_keeps (x : Subject) : KeepsLines s (withdrawVerify x s) := withChan_keeps s _

theorem placeConfirm_keeps (x : Subject) : KeepsLines s (placeConfirm x s) := by
  rw [placeConfirm_eq]; exact withChan_keeps s _

theorem complete_same (r : Requester) (o : CompletionOutcome) : SameButPorts s (complete r o s) := by
  unfold complete; dsimp only; split
  · exact ⟨rfl, rfl, rfl, rfl, rfl, rfl, rfl, rfl, rfl⟩
  · exact .refl s

theorem completeIfAny_same (r : Option Requester) (o : CompletionOutcome) : SameButPorts s (completeIfAny r o s) := by
  cases r with
  | none => exact .refl s
  | some r => exact complete_same s r o

/-! ### Orders and moves -/

theorem orderSelector_keeps (n : LineNo) (pos : Selector) : KeepsLines s (orderSelector n pos s) := by
  intro m
  obtain ⟨a, e⟩ := line_orderSelector s n pos m
  rw [e]
  split
  · exact ⟨_, _, _, _, _, _, rfl⟩
  · exact ⟨_, _, _, _, _, _, rfl⟩

theorem moveLine_keeps (y : AmpNo) (n : LineNo) : KeepsLines s (moveLine y s n) := by
  have head : KeepsLines s (s.setLine n { s.line n with current := y }) := by
    intro m
    rw [line_setLine]
    split
    · next h => subst h; exact ⟨_, _, _, _, _, _, rfl⟩
    · exact .refl _
  unfold moveLine; dsimp only
  split
  · exact head.trans (orderSelector_keeps _ n _)
  · exact head

theorem moveLines_keeps (x y : AmpNo) : KeepsLines s (moveLines x y s) :=
  (foldl_keeps _ (fun s n => moveLine_keeps s y n) _ s).trans (withMove_keeps _ _)

/-! ### Amplifier states, the entry to STANDBY -/

theorem setAmpState_keeps (k : AmpNo) (st : AmpState) : KeepsLines s (setAmpState k st s) := by
  unfold setAmpState; dsimp only; split
  · exact .refl s
  · exact setAmp_keeps s k _

theorem dropCover_keeps (k : AmpNo) : KeepsLines s (dropCover k s) := setAmp_keeps s k _

theorem dropCovered_keeps (k : AmpNo) : KeepsLines s (dropCovered k s) := setAmp_keeps s k _

theorem freeStandby_keeps (x d : AmpNo) : KeepsLines s (freeStandby x d s) := by
  unfold freeStandby; split
  · exact (setAmpState_keeps s x _).trans (dropCovered_keeps _ x)
  · exact .refl s

theorem recordVerifyFail_keeps (k : AmpNo) (ac : Code) (prot : Bool) : KeepsLines s (recordVerifyFail k ac prot s) :=
  ((setAmp_keeps s k _).trans (withdrawConfirm_keeps _ _)).trans (raise_same _ _ _).keeps

theorem enterStandby_keeps : KeepsLines s (enterStandby s) := by
  unfold enterStandby
  refine .trans ?_ (signalAll_same _).keeps
  intro n
  rw [line_mapLines, line_congr (s := s) (t := { s with mc.mode := .standby }) rfl]
  exact ⟨_, _, _, _, _, _, rfl⟩

theorem checkStopped_keeps : KeepsLines s (checkStopped s) := by
  unfold checkStopped; split
  · exact enterStandby_keeps s
  · exact .refl s

section Changeover
variable {arr : Arrive} (ha : ∀ s, KeepsLines s (arr s))
include ha

theorem placeVerify_keeps (x : Subject) (s : State) : KeepsLines s (placeVerify arr x s) := by
  unfold placeVerify; split
  · exact .refl s
  · exact (withChan_keeps s _).trans (ha _)

theorem beginVerify_keeps (o : Operation) (s : State) : KeepsLines s (beginVerify arr o s) :=
  (withCo_keeps s _).trans (placeVerify_keeps ha _ _)

theorem afterGrantMove_keeps (o : Operation) (s : State) : KeepsLines s (afterGrantMove arr o s) := by
  unfold afterGrantMove; split
  · exact (withMove_keeps s _).trans (beginVerify_keeps ha o _)
  · exact .refl s

theorem grantCover_keeps (e : CoEntry) (x : AmpNo) (s : State) : KeepsLines s (grantCover arr e x s) := by
  unfold grantCover; dsimp only
  refine .trans ?_ (afterGrantMove_keeps ha _ _)
  refine .trans ?_ (setAmp_keeps _ _ _)
  refine .trans ?_ (moveLines_keeps _ _ _)
  refine .trans ?_ (clear_same _ _ _).keeps
  exact ((withCo_keeps s _).trans (setAmpState_keeps _ _ _)).trans (setAmp_keeps _ _ _)

theorem grantReturn_keeps (e : CoEntry) (s : State) : KeepsLines s (grantReturn arr e s) := by
  unfold grantReturn; dsimp only
  refine .trans ?_ (afterGrantMove_keeps ha _ _)
  refine .trans ?_ (setAmp_keeps _ _ _)
  exact (withCo_keeps s _).trans (moveLines_keeps _ _ _)

theorem grantAttempt_keeps (s : State) : KeepsLines s (grantAttempt arr s) := by
  unfold grantAttempt; split
  · exact .refl s
  · split
    · unfold grantEntry; split
      · split
        · exact grantCover_keeps ha _ _ s
        · exact .refl s
      · exact grantReturn_keeps ha _ s
    · exact .refl s

theorem endOperation_keeps (o : Option CompletionOutcome) {rejoin : State → State}
    (hr : ∀ s, KeepsLines s (rejoin s)) (s : State) : KeepsLines s (endOperation arr o rejoin s) := by
  have tail : ∀ t : State, KeepsLines t (if t.mc.mode = .stopping then checkStopped t else grantAttempt arr t) := by
    intro t; split
    · exact checkStopped_keeps t
    · exact grantAttempt_keeps ha t
  unfold endOperation; dsimp only
  refine .trans ?_ (tail _)
  refine .trans ?_ (hr _)
  refine .trans ?_ (withCo_keeps _ _)
  split
  · exact (completeIfAny_same s _ _).keeps
  · exact .refl s

omit ha in
theorem rejoinAutoCover_keeps (d : AmpNo) (q : Word) (r : Option Requester) (s : State) :
    KeepsLines s (rejoinAutoCover d q r s) := (withCo_keeps s _).trans (raiseNoCover_same _ d).keeps

omit ha in
theorem rejoinFailedCover_keeps (o : Operation) (s : State) : KeepsLines s (rejoinFailedCover o s) := by
  unfold rejoinFailedCover; dsimp only
  split
  · exact rejoinAutoCover_keeps _ _ _ s
  · exact ((withCo_keeps s _).trans (setAmpState_keeps _ _ _)).trans (clear_same _ _ _).keeps
  · exact (setAmpState_keeps s _ _).trans (clear_same _ _ _).keeps
  · exact withCo_keeps s _
  · exact withCo_keeps s _
  · exact .refl s

theorem moveDone_keeps (s : State) : KeepsLines s (moveDone arr s) := by
  unfold moveDone; split
  · exact .refl s
  · split
    · exact beginVerify_keeps ha _ s
    · exact .refl s
    · exact endOperation_keeps ha _ (rejoinFailedCover_keeps _) s
    · refine endOperation_keeps ha _ (fun t => ?_) s
      split
      · exact rejoinAutoCover_keeps _ _ _ t
      · exact .refl t

theorem reportMove_keeps (s : State) : KeepsLines s (reportMove arr s) := by
  unfold reportMove; split
  · exact (withMove_keeps s _).trans (moveDone_keeps ha _)
  · exact .refl s

theorem moveBack_keeps (d x y : AmpNo) (s : State) : KeepsLines s (moveBack arr d x y s) := by
  unfold moveBack
  refine .trans ?_ (reportMove_keeps ha _)
  exact ((moveLines_keeps s x y).trans (setAmp_keeps _ _ _)).trans (withCo_keeps _ _)

theorem takeVerify_keeps (k : AmpNo) (ac : Code) (ov prot : Bool) (s : State) :
    KeepsLines s (takeVerify arr k ac ov prot s) := by
  unfold takeVerify; split
  · exact .refl s
  · split
    · exact .refl s
    · split
      · exact placeVerify_keeps ha _ s
      · dsimp only
        split
        · split
          · unfold coverPass; dsimp only
            refine .trans ?_ (endOperation_keeps ha _ (fun t => .refl t) _)
            refine .trans ?_ (setAmp_keeps _ _ _)
            split
            · exact setAmpState_keeps s _ _
            · exact setAmpState_keeps s _ _
            · exact setAmpState_keeps s _ _
            · exact .refl s
          · unfold coverFail; dsimp only
            refine .trans ?_ (moveBack_keeps ha _ _ _ _)
            refine .trans ?_ (recordVerifyFail_keeps _ _ _ _)
            exact (setAmpState_keeps s _ _).trans (setAmp_keeps _ _ _)
        · split
          · unfold returnPass; dsimp only
            refine .trans ?_ (endOperation_keeps ha _ (fun t => .refl t) _)
            refine .trans ?_ (freeStandby_keeps _ _ _)
            exact (setAmpState_keeps s _ _).trans (dropCover_keeps _ _)
          · unfold returnFail; dsimp only
            split
            · refine .trans ?_ (moveBack_keeps ha _ _ _ _)
              split
              · exact (recordVerifyFail_keeps s _ _ _).trans (setAmpState_keeps _ _ _)
              · exact recordVerifyFail_keeps s _ _ _
            · refine .trans ?_ (endOperation_keeps ha _ (fun t => rejoinAutoCover_keeps _ _ _ t) _)
              exact ((recordVerifyFail_keeps s _ _ _).trans (setAmpState_keeps _ _ _)).trans (setAmp_keeps _ _ _)

theorem afterRequest_keeps (d : AmpNo) (s : State) : KeepsLines s (afterRequest arr d s) :=
  (raiseNoCover_same s d).keeps.trans (grantAttempt_keeps ha _)

omit ha in
theorem replaceEntry_keeps (e : CoEntry) (s : State) : KeepsLines s (replaceEntry e s) :=
  (withCo_keeps s _).trans (withCo_keeps _ _)

omit ha in
theorem seqOr_keeps (q : Option Word) (s : State) : KeepsLines s (seqOr q s).2 := by
  cases q with
  | none => exact withCo_keeps s _
  | some w => exact .refl s

theorem askAutoCover_keeps (d : AmpNo) (q : Option Word) (s : State) : KeepsLines s (askAutoCover arr d q s) := by
  unfold askAutoCover; split
  · exact withCo_keeps s _
  · split
    · exact (replaceEntry_keeps _ s).trans (afterRequest_keeps ha d _)
    · exact ((seqOr_keeps q s).trans (withCo_keeps _ _)).trans (afterRequest_keeps ha d _)

theorem askAutoReturn_keeps (d : AmpNo) (q : Option Word) (s : State) : KeepsLines s (askAutoReturn arr d q s) := by
  unfold askAutoReturn; split
  · exact .refl s
  · split
    · exact grantAttempt_keeps ha s
    · exact ((seqOr_keeps q s).trans (withCo_keeps _ _)).trans (afterRequest_keeps ha d _)

theorem confirmFail_keeps (k : AmpNo) (snap : Option Snapshot) (s : State) : KeepsLines s (confirmFail arr k snap s) := by
  unfold confirmFail; dsimp only
  refine .trans (raise_same s (.ampFail k) snap).keeps ?_
  split
  · unfold dutyFails; split
    · exact (setAmpState_keeps _ _ _).trans (askAutoCover_keeps ha _ _ _)
    · exact (setAmpState_keeps _ _ _).trans (askAutoCover_keeps ha _ _ _)
    · exact setAmpState_keeps _ _ _
    · split
      · split
        · exact (replaceEntry_keeps _ _).trans (afterRequest_keeps ha _ _)
        · exact .refl _
      · exact .refl _
    · exact .refl _
  · unfold standbyFails; dsimp only
    refine .trans ((setAmpState_keeps _ k .faulty).trans (dropCovered_keeps _ k)) ?_
    split
    · exact .refl _
    · unfold coverLostInFlight
      exact (withdrawVerify_keeps _ _).trans (moveBack_keeps ha _ _ _ _)
    · unfold loseCover; dsimp only
      split
      · exact ((dropCover_keeps _ _).trans (setAmpState_keeps _ _ _)).trans (askAutoCover_keeps ha _ _ _)
      · exact ((dropCover_keeps _ _).trans (setAmpState_keeps _ _ _)).trans (askAutoReturn_keeps ha _ _ _)
      · exact dropCover_keeps _ _

theorem confirmNormal_keeps (k : AmpNo) (snap : Option Snapshot) (s : State) :
    KeepsLines s (confirmNormal arr k snap s) := by
  unfold confirmNormal; dsimp only
  refine .trans (clear_same s (.ampFail k) snap).keeps ?_
  split
  · exact (setAmpState_keeps _ _ _).trans (grantAttempt_keeps ha _)
  · split
    · exact .refl _
    · split
      · split
        · unfold recoverQueued; dsimp only
          refine .trans ?_ (afterRequest_keeps ha _ _)
          refine .trans ?_ (clear_same _ _ _).keeps
          split
          · split
            · exact (setAmpState_keeps _ _ _).trans (replaceEntry_keeps _ _)
            · exact (setAmpState_keeps _ _ _).trans (withCo_keeps _ _)
          · exact replaceEntry_keeps _ _
        · exact .refl _
      · exact .refl _
  · exact .refl _

omit ha in
theorem placeAmpIfCounting_keeps (k : AmpNo) (s : State) : KeepsLines s (placeAmpIfCounting k s) := by
  unfold placeAmpIfCounting; split
  · exact placeConfirm_keeps s _
  · exact .refl s

theorem ampReading_keeps (k : AmpNo) (ac : Code) (ov prot : Bool) (s : State) :
    KeepsLines s (ampReading arr k ac ov prot s) := by
  have body : ∀ (t : State) (d : Debounce Condition) (snap : Option Snapshot), KeepsLines t
      (if d.changed then
        match d.confirmed with
        | .fail => confirmFail arr k snap t
        | .normal => confirmNormal arr k snap t
      else stepSuspect k t) := by
    intro t d snap
    split
    · split
      · exact confirmFail_keeps ha k snap t
      · exact confirmNormal_keeps ha k snap t
    · unfold stepSuspect; dsimp only
      split
      · exact setAmpState_keeps t _ _
      · split
        · exact setAmpState_keeps t _ _
        · exact .refl t
  unfold ampReading; dsimp only
  by_cases h : (s.amp k).state = .disabled
  · simp only [h, ↓reduceIte]; exact .refl s
  · simp only [h, ↓reduceIte]
    by_cases ho : ov = true
    · simp only [ho, ↓reduceIte]; exact placeAmpIfCounting_keeps k s
    · simp only [ho, Bool.false_eq_true, ↓reduceIte]
      exact ((setAmp_keeps s k _).trans (body _ _ _)).trans (placeAmpIfCounting_keeps k _)

end Changeover

/-! ### The channel -/

theorem startRound_keeps : KeepsLines s (startRound s) := withChan_keeps s _

theorem enterActive_keeps : KeepsLines s (enterActive s) := by
  unfold enterActive; dsimp only
  refine .trans ?_ (grantAttempt_keeps (fun s => .refl s) _)
  refine .trans ?_ (foldl_sameButTable _ (fun s n => heldEarth_same s n) _ _).keeps
  refine .trans ?_ (foldl_sameButTable _ (fun s n => heldRaises_same s n) _ _).keeps
  exact .of_lines rfl

theorem countRound_keeps : KeepsLines s (countRound s) := by
  have head : KeepsLines s { s with mc.settleCount := min 15 (s.mc.settleCount + 1) } :=
    .of_lines rfl
  unfold countRound; split
  · dsimp only; split
    · exact head.trans (enterActive_keeps _)
    · exact head
  · exact .refl s

theorem endRound_keeps : KeepsLines s (endRound s) := by
  have tail : ∀ t : State, KeepsLines t (if t.runs then startRound t else t) := by
    intro t; split
    · exact startRound_keeps t
    · exact .refl t
  unfold endRound; dsimp only
  refine .trans ?_ (tail _)
  refine .trans ?_ (signalAll_same _).keeps
  exact (withChan_keeps s _).trans (countRound_keeps _)

theorem grant_keeps (t : Target) (c : GrantClass) (i : Option Nat) : KeepsLines s (grant t c i s) := withChan_keeps s _

theorem takeSlot_keeps (r : Round) (pos : Nat) (t : Target) : KeepsLines s (takeSlot r pos t s) := by
  unfold takeSlot; split
  · exact withChan_keeps s _
  · exact (withChan_keeps s _).trans (grant_keeps _ _ _ _)

theorem tryVerify_keeps : KeepsLines s (tryVerify s) := by
  unfold tryVerify; dsimp only; split
  · exact (withChan_keeps s _).trans (grant_keeps _ _ _ _)
  · exact withChan_keeps s _

theorem tryClass_keeps (c : RotClass) : KeepsLines s (tryClass c s) := by
  cases c with
  | confirm =>
    unfold tryClass tryConfirm; dsimp only; split
    · exact ((withChan_keeps s _).trans (withChan_keeps _ _)).trans (grant_keeps _ _ _ _)
    · exact withChan_keeps s _
  | learn =>
    unfold tryClass tryLearn; dsimp only; split
    · exact .refl s
    · split
      · exact (withChan_keeps s _).trans (grant_keeps _ _ _ _)
      · exact .refl s
  | scan =>
    unfold tryClass tryScan; dsimp only; split
    · exact .refl s
    · split
      · exact .refl s
      · split
        · exact takeSlot_keeps s _ _ _
        · refine .trans (endRound_keeps s) ?_
          unfold tryFirstSlot; split
          · exact .refl _
          · split
            · exact takeSlot_keeps _ _ _ _
            · exact .refl _

theorem firstGrant_keeps (l : List (State → State)) (h : ∀ f ∈ l, ∀ s, KeepsLines s (f s)) (s : State) :
    KeepsLines s (firstGrant l s) := by
  induction l generalizing s with
  | nil => exact .refl s
  | cons f fs ih =>
    unfold firstGrant; dsimp only
    split
    · exact h f (by simp) s
    · exact (h f (by simp) s).trans (ih (fun g hg => h g (by simp [hg])) _)

theorem searchOnce_keeps : KeepsLines s (searchOnce s) := by
  refine firstGrant_keeps _ (fun f hf => ?_) s
  rcases List.mem_cons.mp hf with rfl | hf
  · exact tryVerify_keeps
  · obtain ⟨c, -, rfl⟩ := List.mem_map.mp hf
    exact fun s => tryClass_keeps s c

theorem searchRunning_keeps : KeepsLines s (searchRunning s) := by
  unfold searchRunning; dsimp only; split
  · exact (searchOnce_keeps s).trans (searchOnce_keeps _)
  · exact searchOnce_keeps s

theorem channelFree_keeps : KeepsLines s (channelFree s) := by
  have tail : ∀ t : State, KeepsLines t
      (match t.mc.mode with
        | .settling | .active => searchRunning t
        | .stopping =>
          if (tryVerify t).chan.inFlight.isNone then checkStopped (tryVerify t) else tryVerify t
        | .loading | .standby => t) := by
    intro t
    split
    · exact searchRunning_keeps t
    · exact searchRunning_keeps t
    · split
      · exact (tryVerify_keeps t).trans (checkStopped_keeps _)
      · exact tryVerify_keeps t
    · exact .refl t
    · exact .refl t
  unfold channelFree
  exact (withChan_keeps s _).trans (tail _)

theorem arrival_keeps : KeepsLines s (arrival s) := by
  unfold arrival; split
  · exact .refl s
  · exact channelFree_keeps s

/-! ### The lines that come back at DISABLE_AMP (R4, R84) -/

theorem takeLinesHome_work (x d : AmpNo) : LineWork s (takeLinesHome x d s) := foldl_work _ (fun s n => moveLine_work s n d) _ s

theorem takeLinesHome_keeps (x d : AmpNo) : KeepsLines s (takeLinesHome x d s) :=
  foldl_keeps _ (fun s n => moveLine_keeps s d n) _ s

/-! ### Retry timers and placements (R9, R25, R26) -/

/-- All that a start of the retry timer does to its line. -/
theorem startRetry_line (n : LineNo) :
    (startRetry n s).line n = { s.line n with timer := (s.line n).timerAfterShort s.runs } := by
  unfold startRetry Line.timerAfterShort State.startedTimer Line.fullDelay
  dsimp only; split <;> simp [*]

@[simp] theorem freeze_freeze (u : RetryTimer) : u.freeze.freeze = u.freeze := by cases u <;> rfl

@[simp] theorem restsAs_self (u : RetryTimer) (r : Bool) : u.restsAs u r = true := by simp [RetryTimer.restsAs]

theorem freeze_restsAs (u : RetryTimer) : u.freeze.restsAs u false = true := by simp [RetryTimer.restsAs]

theorem mem_placeVerify_id (x : Subject) : x ∈ (placeVerify id x s).chan.verify := by
  rw [placeVerify_id]; by_cases h : x ∈ s.chan.verify <;> simp [h]

theorem mem_placeConfirm (x : Subject) (h : s.runs = true) : x ∈ (placeConfirm x s).chan.confirm := by
  rw [placeConfirm_eq]; by_cases h' : x ∈ s.chan.confirm <;> simp [h, h']

end Sys2Proof.Machine
end

