-- ==== Sys2Proof/Tests/Slice0.lean ====
section
/-! SUPPORT. Tests: ill-formed commands, the arithmetic against the tables of the specification, steps taken from its worked
sequences, and a witness for the hypotheses of each statement. Expected values are the specification's, or follow by hand
from the rule named. -/

namespace Sys2Proof.Tests

set_option Elab.async false

open Sys2Proof.Machine

/-! ### Ill-formed commands are refused (Sys2Proof/WellFormed.lean) -/

theorem test_wf_payload_above_32 : (Instr.status .a 0 (List.replicate 33 0)).wellFormed = false := by decide
theorem test_wf_payload_32 : (Instr.status .a 0 (List.replicate 32 0)).wellFormed = true := by decide
theorem test_wf_known_code : (Instr.unknownRequest .a 0x31 0 1).wellFormed = false := by decide
theorem test_wf_unknown_code : (Instr.unknownRequest .a 0x08 0 1).wellFormed = true := by decide
theorem test_wf_complete_frame : (Instr.frameAborted .b [0x31, 0x2C, 0x01, 0x0B]).wellFormed = false := by decide
theorem test_wf_cut_frame : (Instr.frameAborted .b [0x31, 0x2C, 0x01]).wellFormed = true := by decide
theorem test_wf_record_length : (Instr.recordRead [0]).wellFormed = false := by decide
theorem test_wf_trip_overranges : (Instr.measurementCompletion (.earth 100 true)).wellFormed = false := by decide

/-! ### The tables of the specification -/

/-- R164's check values: one zero byte, and the ASCII digits 1 to 9. -/
theorem test_crc_values : crc16 [0x00] = 0xE1F0 ∧
    crc16 [0x31, 0x32, 0x33, 0x34, 0x35, 0x36, 0x37, 0x38, 0x39] = 0x29B1 := by decide +kernel

/-- The table of R63. -/
theorem test_earth_estimates : ([0, 20, 100, 420, 512, 800, 900, 2000, 4095] : List Code).map earthEstimate =
    [9999, 9999, 2000, 476, 390, 250, 222, 100, 48] := by decide

/-- 3.9: the readings of a loop that loses half its load, at shift 2. -/
theorem test_half_a_loop_lost : rawImpedance 1800 1100 512 = 837 ∧ rawImpedance 1800 560 512 = 1645 ∧
    filterZ (some 833) 2 837 = 834 ∧ filterZ (some 834) 2 1645 = 1037 ∧ filterZ (some 1037) 2 1645 = 1189 ∧
    deviationOf (some 833) (some 1037) = some 244 ∧ deviationOf (some 833) (some 1389) = some 667 := by decide

/-- 3.10: the way back, and the window narrowed by the hysteresis. -/
theorem test_repair : filterZ (some 1389) 2 837 = 1251 ∧ filterZ (some 1011) 2 837 = 967 ∧
    instantClass { factoryLine 5 with zref := some 833 } .high 1069 (some 283) = .high ∧
    instantClass { factoryLine 5 with zref := some 833 } .normal 1069 (some 283) = .normal ∧
    instantClass { factoryLine 5 with zref := some 833 } .high 1011 (some 213) = .normal := by decide

/-- 3.11: an open cable, and the reseed of the filter. -/
theorem test_open_cable : rawImpedance 1800 5 512 = 65535 ∧ filterZ (some 834) 2 65535 = 65535 ∧
    filterZ (some 65535) 2 834 = 834 ∧ deviationOf (some 833) (some 65535) = none ∧
    instantClass (factoryLine 2) .normal 65535 none = .opened := by decide

/-- 3.12: a reading below the reference has a deviation truncated toward 0. -/
theorem test_shift_two : rawImpedance 60 2600 512 = 11 ∧ filterZ (some 834) 2 11 = 628 ∧
    deviationOf (some 833) (some 628) = some (-246) ∧ deviationOf (some 833) (some 473) = some (-432) := by decide

/-- 3.14: the reference of eight samples with sum 6663. -/
theorem test_learned_reference : learnedReference 6663 = 833 := by decide

/-- The request codes are those of the request table, each in it once. -/
theorem test_request_codes : allRequests.map Request.code =
    [0x01, 0x02, 0x03, 0x04, 0x05, 0x06, 0x07, 0x10, 0x11, 0x12, 0x13, 0x14, 0x15, 0x16, 0x17, 0x18, 0x20, 0x21,
      0x30, 0x31, 0x32, 0x33, 0x34, 0x35, 0x40, 0x41, 0x42, 0x43, 0x44, 0x50, 0x51, 0x52, 0x53, 0x54, 0x55] := by decide

/-- The payload lengths are those of the request table. -/
theorem test_request_lengths : allRequests.map Request.payloadLen =
    [0, 0, 1, 1, 3, 1, 0, 0, 0, 3, 0, 0, 0, 1, 0, 0, 3, 0, 1, 1, 1, 1, 21, 1, 1, 1, 1, 1, 6, 0, 0, 0, 0, 4, 1] := by
  decide

/-- Key coding (R171): LINE_OPEN of line 5 and LOW_SUPPLY. -/
theorem test_key_bytes : encKey (.ampFail 2) = [0, 0x12, 0] ∧ encKey .lowSupply = [7, 0x20, 4] := by decide

/-! ### Small states -/

/-- A line on its bus, with the reference of the worked cases. -/
def onBus (n : LineNo) : Line :=
  { resetLine n with
    state := .connected, selector := .bus (factoryHome n), zf := some 834, cfg.zref := some 833, epoch := 1 }

/-- ACTIVE at factory settings, every line on its bus and every amplifier well, the LINE slot of line 0 in flight. -/
def active : State :=
  { State.reset with
    lines := #v[onBus 0, onBus 1, onBus 2, onBus 3, onBus 4, onBus 5, onBus 6, onBus 7, onBus 8, onBus 9, onBus 10,
      onBus 11, onBus 12, onBus 13, onBus 14, onBus 15]
    amps := State.reset.amps.map fun x =>
      { x with state := if x.cfg.role = .duty then .healthy else .free, stamp := 1 }
    chan := { State.reset.chan with
      inFlight := some ⟨.line 0, .scan, some 1, none, some 0, false, 40⟩
      round := some ⟨[.line 0, .amp 0], 1, 0⟩
      rotation := .scan }
    mc := { State.reset.mc with mode := .active }
    store := { State.reset.store with judged := 23 } }

/-- The same part in STANDBY, with nothing measured. -/
def standing : State :=
  { active with mc.mode := .standby, chan.inFlight := none, chan.round := none }

/-- The state that a command leaves. -/
def after (c : Instr) (s : State) : State :=
  match exec c s with
  | .next t => t
  | .fault _ | .refused _ => s

/-- Line 5 changed. -/
def with5 (s : State) (f : Line → Line) : State := s.setLine 5 (f (s.line 5))

/-- Line 5 off by command. -/
def off5 : State := with5 active fun l => { l with state := .isolated, selector := .off, cause := .command }

/-- Line 5 off for protection, its timer running. -/
def prot5 : State :=
  with5 active fun l => { l with state := .isolated, selector := .off, cause := .protective, timer := .running 30000 }

/-- Line 5 out of supervision. -/
def gone5 : State := with5 active fun l => { l with state := .disabled, selector := .off, cfg.enabled := false }

/-- A RESTORE of Port A waits on its own session. -/
def askA (r : Request) : Requester := ⟨.a, 0x2C, 0, r⟩

/-- Port A counts one long request in flight. -/
def oneInFlight (s : State) : State := s.setPort .a { s.port .a with inFlight := 1 }

/-- Line 5 in its probe, with a waiting RESTORE of Port A, its VERIFY measurement in flight. -/
def probe5 : State :=
  oneInFlight { (with5 active fun l =>
      { l with state := .probing, selector := .test, zf := none, passCount := 2, waiting := some (askA .restore) }) with
    chan.inFlight := some ⟨.line 5, .verify, some 1, none, none, false, 40⟩ }

/-- The table holds LINE_SHORT of line 5, active and unacknowledged, NEW for Port A, which listens. -/
def shorted : State :=
  let s := active.setPort .a { active.port .a with listening := true, latch := true }
  { s with faults := { s.faults with
      counter := 1
      records := [⟨.lineShort 5, .activeUnack, 1, 0, 1, none, none, ⟨true, false, false⟩⟩] } }

/-! ### Steps of the worked sequences -/

/-- 11.6: Port B's RESTORE with three long requests in flight is answered ACCEPTED, with one byte, 4; its probe starts. -/
def threeOfB : State :=
  let s := active.setLine 11 { active.line 11 with state := .isolated, selector := .off, cause := .command }
  s.setPort .b { s.port .b with listening := true, inFlight := 3 }

theorem test_restore_accepted : ((after (.restore .b 0x2C [0x0B]) threeOfB).port .b).reply = some ⟨.accepted, [4]⟩ ∧
    ((after (.restore .b 0x2C [0x0B]) threeOfB).line 11).state = .probing := by decide +kernel

/-- 11.6: a further STORE of Port B is refused BUSY. -/
theorem test_fifth_long_request : ((after (.store .b 0 [12])
    (threeOfB.setPort .b { threeOfB.port .b with inFlight := 4 })).port .b).reply = some ⟨.busy, []⟩ := by decide +kernel

/-- 3.9: the third reading after the cut makes HIGH a candidate with count 1 and places the line for confirmation. -/
def cut5 : State :=
  { (with5 active fun l => { l with zf := some 1037 }) with
    chan.inFlight := some ⟨.line 5, .scan, some 1, none, some 0, false, 40⟩, chan.rotation := .confirm }

theorem test_high_candidate :
    let t := after (.measurementCompletion (.line 1800 560 false)) cut5
    (t.line 5).zf = some 1189 ∧ (t.line 5).deviation = some 427 ∧ (t.line 5).candidate = some .high ∧
      (t.line 5).count = 1 ∧ t.chan.confirm = [.line 5] := by decide +kernel

/-- 3.9: the fifth confirms HIGH and raises LINE_HIGH with Zf 1389 and deviation 667. -/
theorem test_high_confirmed :
    let s := with5 cut5 fun l => { l with zf := some 1303, candidate := some .high, count := 2 }
    let t := after (.measurementCompletion (.line 1800 560 false)) s
    (t.line 5).confirmed = .high ∧ (t.line 5).count = 0 ∧
      t.faults.records.map (fun r => (r.key, r.snapshot)) = [(.lineHigh 5, some (.impedance (some 1389) (some 667)))] := by
  decide +kernel

/-- 3.14: the eighth sample of line 12 sets the reference to 833 and ends the job LEARN_DONE. -/
def learning : State :=
  let s := active.setLine 12 { active.line 12 with cfg.zref := none, learn := some ⟨7, 5830⟩ }
  oneInFlight { s with
    chan.job := some ⟨12, { askA .learn with tag := 0x51 }, 8⟩
    chan.inFlight := some ⟨.line 12, .learn, some 1, none, none, false, 40⟩ }

theorem test_learn_done :
    let t := after (.measurementCompletion (.line 1800 1106 false)) learning
    rawImpedance 1800 1106 512 = 833 ∧ (t.line 12).cfg.zref = some 833 ∧ (t.line 12).deviation = some 1 ∧
      (t.port .a).completions = [⟨0x51, .learn, .learnDone⟩] ∧ t.chan.job = none := by decide +kernel

/-- 10.8: STORE of record 12 is accepted, and its timeout makes it WRITE_FAILED and raises STORE_FAULT of the line. -/
theorem test_store : ((after (.store .a 0x60 [12]) active).port .a).reply = some ⟨.accepted, [1]⟩ ∧
    ((after (.store .a 0x60 [12]) active).recordStatus 12).condition = .writing := by decide +kernel

/-- A write of record 12 in flight. -/
def writing : State :=
  oneInFlight { active with store := { active.store with
    write := some ⟨12, askA .store, buildRecord 12 active, 25⟩
    status := active.store.status.set 12 ⟨.writing, .noCause⟩ } }

theorem test_write_timeout :
    let t := after .writeTimeout writing
    (t.recordStatus 12).condition = .writeFailed ∧ t.faults.records.map (·.key) = [.storeFault (.line 12)] ∧
      (t.port .a).completions = [⟨0x2C, .store, .storeTimeout⟩] := by decide +kernel

theorem test_write_completion :
    let t := after .writeCompletion writing
    (t.recordStatus 12).condition = .valid ∧ t.store.areas[12] = .known (buildRecord 12 active) ∧
      (t.port .a).completions = [⟨0x2C, .store, .storeDone⟩] := by decide +kernel

/-- R177: the identity of Port M, after the numbers of lines and amplifiers. -/
theorem test_identify_port_m : (identifyReply .m).payload = [0x16, 0x06] ++ Config.revision ++ [16, 6, 2] ∧
    (after (.identify .m 0 []) State.reset).mc = State.reset.mc :=
  ⟨by simp [identifyReply, enc16, enc8, encPort], by decide +kernel⟩

/-- R176: STATUS begins with the mode ACTIVE, settle count 0 of 3, EMERG released, flags clear, no emergency, supply
NORMAL and cause POWER_ON. -/
theorem test_status : ((after (.status .a 0 []) active).port .a).reply.map (fun r => r.payload.take 9) =
    some [3, 0, 3, 1, 1, 1, 0, 0, 0] := by decide +kernel

/-- R40, R179: two empty queues, no job, round 0 in progress with 2 slots at slot 1, pointer SCAN, and a LINE measurement of
class SCAN of line 0 in flight. -/
theorem test_read_queue : ((after (.readQueue .a 0 []) active).port .a).reply.map (fun r => (r.code, r.payload.take 15)) =
    some (.ok, [0, 0, 0, 0, 0, 0, 0, 1, 2, 1, 2, 1, 0, 3, 0]) := by decide +kernel

theorem test_read_line : ((after (.readLine .a 0 [5]) active).port .a).reply.map (fun r => (r.code, r.payload.take 4)) =
    some (.ok, [1, 1, 2, 0]) := by decide +kernel

theorem test_read_amp : ((after (.readAmp .a 0 [4]) active).port .a).reply.map (fun r => (r.code, r.payload.take 3)) =
    some (.ok, [1, 4, 0]) := by decide +kernel

/-- R126: the key of LINE_SHORT of line 5 with its lifecycle, occurrences and first round. -/
theorem test_read_record :
    ((after (.readRecord .b 0 [2, 5, 0]) shorted).port .b).reply.map (fun r => (r.code, r.payload.take 5)) =
      some (.ok, [2, 5, 0, 0, 1]) := by decide +kernel

theorem test_list_records : ((after (.listRecords .a 0 [0]) shorted).port .a).reply =
    some ⟨.ok, [1, 0, 1, 0, 0, 1, 2, 5, 0, 0, 1, 0, 1, 1]⟩ := by decide +kernel

/-- R130: a port that starts listening finds the record NEW, and its latch is set. -/
theorem test_listen :
    let t := after (.listen .m 0 []) shorted
    (t.port .m).latch = true ∧ (t.port .m).reply = some ⟨.ok, [1]⟩ ∧ t.newCount .m = 1 := by decide +kernel

theorem test_leave : (after (.leave .a 0 []) shorted).newCount .a = 0 ∧
    ((after (.leave .a 0 []) shorted).port .a).latch = false := by decide +kernel

/-- R132: a level above 8 is clamped to 8. -/
theorem test_set_notify : ((after (.setNotify .a 0 [4, 9, 1]) shorted).port .a).urgent = 8 ∧
    ((after (.setNotify .a 0 [4, 9, 1]) shorted).port .a).latch = false ∧
    ((after (.setNotify .a 0 [4, 9, 1]) shorted).port .a).reply = some ⟨.clamped, []⟩ := by decide +kernel

/-- R134: the class goes into service and the mark is dropped. -/
theorem test_fetch :
    let t := after (.fetch .a 0 []) shorted
    (t.port .a).inService.toList = [false, false, true, false, false, false, false, false] ∧ t.newCount .a = 0 ∧
      (t.port .a).latch = false := by decide +kernel

theorem test_peek : ((after (.peek .a 0 []) shorted).port .a).reply.map (fun r => (r.code, r.payload.take 4)) =
    some (.ok, [2, 2, 5, 0]) := by decide +kernel

/-- Classes 2 and 4 in service at Port A. -/
def serving : State :=
  shorted.setPort .a { shorted.port .a with
    inService := #v[false, false, true, false, true, false, false, false], latch := false }

theorem test_done :
    let t := after (.done .a 0 []) serving
    (t.port .a).inService.toList = [false, false, false, false, true, false, false, false] ∧
      (t.port .a).latch = true := by decide +kernel

theorem test_done_class :
    let t := after (.doneClass .a 0 [4]) serving
    (t.port .a).inService.toList = [false, false, true, false, false, false, false, false] ∧
      (t.port .a).latch = false := by decide +kernel

/-- A completion waits at Port A. -/
def completed : State :=
  active.setPort .a { active.port .a with completions := [⟨0x2C, .restore, .restored⟩] }

/-- 11.6: the tag, RESTORE's code, outcome 0x0B and 0 records left. -/
theorem test_read_completion :
    ((after (.readCompletion .a 0 []) completed).port .a).reply = some ⟨.ok, [0x2C, 0x31, 0x0B, 0]⟩ ∧
      ((after (.readCompletion .a 0 []) completed).port .a).completions = [] := by decide +kernel

theorem test_reset_port :
    let t := after (.resetPort .a 0 []) shorted
    (t.port .a).session = 1 ∧ (t.port .a).listening = false ∧ t.newCount .a = 0 ∧
      (t.port .a).reply = some ⟨.ok, [0, 1, 0]⟩ := by decide +kernel

/-- R118: ACK by B leaves ACTIVE_ACK, acknowledged by B, with the next stamp. -/
theorem test_ack : (after (.ack .b 0 [2, 5, 0]) shorted).faults.records.map (fun r =>
    (r.lifecycle, r.ackPort, r.stamp)) = [(.activeAck, some .b, 2)] := by decide +kernel

theorem test_ack_all : ((after (.ackAll .m 0 []) shorted).port .m).reply = some ⟨.ok, [1]⟩ := by decide +kernel

theorem test_isolate :
    let t := after (.isolate .a 0 [5]) active
    (t.line 5).state = .isolated ∧ (t.line 5).cause = .command ∧ (t.line 5).selector = .off ∧
      (t.line 5).relayLeft = some 12 ∧ (t.line 5).epoch = 2 := by decide +kernel

theorem test_restore_no_change : ((after (.restore .a 0 [5]) active).port .a).reply = some ⟨.noChange, []⟩ := by
  decide +kernel

theorem test_enable_line : ((after (.enableLine .a 0 [5]) gone5).line 5).state = .isolated ∧
    ((after (.enableLine .a 0 [5]) gone5).line 5).cause = .command := by decide +kernel

theorem test_disable_line : ((after (.disableLine .a 0 [5]) active).line 5).state = .disabled ∧
    ((after (.disableLine .a 0 [5]) active).line 5).cfg.enabled = false := by decide +kernel

/-- Fields of CONFIGURE_LINE for line 5: home 1, gain 512, Zref 833, windows 250 and 300, hysteresis 50, floor 20, shift
2, counts 3 and 3, earth check yes, threshold 16, auto retry yes, delay 30, limit 3. -/
def fields5 : List Byte :=
  [5, 1, 2, 0, 3, 0x41, 0, 250, 1, 44, 50, 0, 20, 2, 3, 3, 1, 16, 1, 30, 3]

theorem test_configure_line : (after (.configureLine .a 0 fields5) off5).port .a = { off5.port .a with
    reply := some ⟨.ok, []⟩ } ∧ ((after (.configureLine .a 0 fields5) off5).line 5).cfg.zref = some 833 := by
  decide +kernel

/-- The shift is clamped to 4, and the reply says so. -/
theorem test_configure_line_clamped :
    let t := after (.configureLine .a 0 (fields5.set 13 9)) off5
    (t.line 5).cfg.shift = 4 ∧ (t.port .a).reply = some ⟨.clamped, []⟩ := by decide +kernel

theorem test_learn : (after (.learn .a 0x51 [12]) active).chan.job = some ⟨12, ⟨.a, 0x51, 0, .learn⟩, 0⟩ ∧
    ((after (.learn .a 0x51 [12]) active).line 12).learn = some ⟨0, 0⟩ := by decide +kernel

/-- R92: the lowest standby, 4, takes the lines of amplifier 1. -/
theorem test_cover :
    let t := after (.cover .a 0 [1]) active
    (t.amp 4).state = .busy ∧ (t.amp 4).coveredAmp = some 1 ∧ (t.line 5).selector = .bus 4 ∧
      t.move = some [4, 5, 6, 7] := by decide +kernel

/-- Amplifier 1 is covered by standby 4, which carries its lines. -/
def covered : State :=
  let s := (active.setAmp 1 { active.amp 1 with
    state := .covered, condition := .normal, coveringStandby := some 4, coverSeq := some 0, carrying := 4 }).setAmp 4
      { active.amp 4 with state := .busy, coveredAmp := some 1 }
  with5 s fun l => { l with current := 4, selector := .bus 4 }

theorem test_return :
    let t := after (.returnLines .a 0 [1]) covered
    t.co.op.map (fun o => (o.kind, o.duty, o.standby, o.phase)) = some (.returnLines, 1, 4, .moving) ∧
      (t.line 5).selector = .bus 1 := by decide +kernel

theorem test_enable_amp : ((after (.enableAmp .a 0 [4]) (active.setAmp 4 (resetAmp 4))).amp 4).state = .free := by
  decide +kernel

theorem test_disable_amp : ((after (.disableAmp .a 0 [5]) active).amp 5).state = .disabled ∧
    ((after (.disableAmp .a 0 [1]) active).port .a).reply = some ⟨.inUse, []⟩ := by decide +kernel

theorem test_configure_amp :
    let t := after (.configureAmp .a 0 [5, 1, 0x10, 0, 16, 1]) (active.setAmp 5 (resetAmp 5))
    (t.amp 5).cfg = ⟨.standby, 4095, 15, 1, true⟩ ∧ (t.port .a).reply = some ⟨.clamped, []⟩ := by decide +kernel

theorem test_start : (after (.start .a 0 []) standing).mc.mode = .settling ∧
    ((after (.start .a 0 []) standing).line 5).zf = none := by decide +kernel

/-- 9.10: a STOP is held back while LINE_SHORT is not acknowledged. -/
theorem test_stop : (after (.stop .a 0 []) active).mc.mode = .stopping ∧
    ((after (.stop .a 0 []) shorted).port .a).reply = some ⟨.alarmPending, []⟩ := by decide +kernel

theorem test_emergency_on : (after (.emergencyOn .b 0 []) active).mc.flagB = true := by decide +kernel

theorem test_emergency_off : (after (.emergencyOff .b 0 []) { active with mc.flagB := true }).mc.flagB = false := by
  decide +kernel

theorem test_configure_system : (after (.configureSystem .a 0 [17, 0, 3, 1]) active).mc.sys = ⟨16, 1, 3, true⟩ := by
  decide +kernel

theorem test_unknown_request : ((after (.unknownRequest .a 0x08 0 1) active).port .a).reply =
    some ⟨.unknownRequest, []⟩ := by decide +kernel

theorem test_frame_aborted : after (.frameAborted .b [0x31, 0x2C]) active = active := by decide +kernel

theorem test_power_on : (after .powerOn active).mc.resetInForce = some ⟨true, .powerOn⟩ ∧
    (after .powerOn active).mc.mode = .loading := by decide +kernel

theorem test_brown_out : (after .brownOut active).mc.resetInForce = some ⟨false, .brownOut⟩ := by decide +kernel

theorem test_reset_pin : ((after .resetPin active).line 5).selector = .home := by decide +kernel

/-- R159, R160: the cause is the kind that ended, and a low supply raises LOW_SUPPLY. -/
theorem test_reset_end :
    let t := after (.resetEnd true false) (after .brownOut active)
    t.mc.cause = .brownOut ∧ t.mc.supply = .low ∧ t.faults.records.map (·.key) = [.lowSupply] := by decide +kernel

/-- R165: an area of 0xFF bytes is BLANK. -/
theorem test_record_read_blank : (after (.recordRead (List.replicate 24 0xFF)) State.reset).recordStatus 0 =
    ⟨.defaulted, .blank⟩ := by decide +kernel

theorem test_unreadable : (after .unreadable State.reset).recordStatus 0 = ⟨.defaulted, .unreadable⟩ := by
  decide +kernel

theorem test_emerg_input : (after .emergAsserted active).mc.emergInput = true ∧
    (after .emergReleased { active with mc.emergInput := true }).mc.emergInput = false := by decide +kernel

theorem test_supply_falls : (after .supplyFalls active).faults.records.map (·.key) = [.lowSupply] := by decide +kernel

theorem test_supply_rises : (after .supplyRises (after .supplyFalls active)).faults.records.map (·.lifecycle) =
    [.clearedUnack] := by decide +kernel

theorem test_empty_round :
    (after .emptyRoundExpiry { active with chan.round := some ⟨[], 0, 1⟩ }).chan.roundNumber = 1 := by decide +kernel

theorem test_relay_completion : ((after (.relayCompletion 5) (after (.isolate .a 0 [5]) active)).line 5).relayLeft =
    none := by decide +kernel

theorem test_retry_expiry : ((after (.retryExpiry 5) prot5).line 5).state = .probing ∧
    (after (.retryExpiry 5) prot5).chan.verify = [.line 5] := by decide +kernel

/-- R13: the third passing reading restores the line. -/
theorem test_probe_passes :
    let t := after (.measurementCompletion (.line 1800 1100 false)) probe5
    (t.line 5).state = .connected ∧ (t.line 5).selector = .bus 1 ∧
      (t.port .a).completions = [⟨0x2C, .restore, .restored⟩] := by decide +kernel

/-! ### Witnesses: states and operands that meet the hypotheses of the statements, clause by clause -/

/-- The part during a power-on reset. -/
def inReset : State := after .powerOn active

/-- The record of LINE_SHORT of line 5 in a lifecycle, NEW for Port A or for no port. -/
def shortRecord (l : Lifecycle) (new : Bool) : FaultRecord :=
  ⟨.lineShort 5, l, 1, 0, 1, if l = .activeAck ∨ l = .closed then some .b else none, none, ⟨new, false, false⟩⟩

/-- A table that holds that record alone, Port A listening. -/
def withRecord (l : Lifecycle) (new : Bool) : State :=
  { shorted with faults.records := [shortRecord l new] }

/-- Forty-eight keys: every key of the lines' classes 2 to 4. -/
def manyKeys : List FaultKey := allLines.map .lineShort ++ allLines.map .lineOpen ++ allLines.map .earthLeak

/-- A full table, with LINE_LOW of line 1 and AMP_FAIL of amplifier 2 deferred; the record of line 5 is CLOSED. -/
def full : State :=
  { active with faults := {
      records := manyKeys.map fun k =>
        if k = .lineShort 5 then ⟨k, .closed, 1, 0, 1, some .b, none, ⟨false, false, false⟩⟩
        else ⟨k, .activeUnack, 1, 0, 1, none, none, ⟨false, false, false⟩⟩
      deferred := [⟨.lineLow 1, none, 3⟩, ⟨.ampFail 2, none, 4⟩]
      counter := 48, full := true } }

theorem test_no_key_in_class_8 (j : FaultKey) : ([8, 5, 0] : List Byte) ≠ encKey j := by
  cases j <;> simp [encKey, enc8, FaultKey.cls, FaultKey.encSubject, FaultKey.reason, encKeyLine, encKeyAmp]

theorem test_witness_step : { active with pending := [.supplyFalls] }.pending = Instr.supplyFalls :: [] := rfl

theorem test_witness_tick : active.pending = [] ∧ active.mc.resetInForce = none ∧ inReset.pending = [] ∧
    inReset.mc.resetInForce.isSome ∧ (prot5.line 5).timer = .running 30000 ∧ (active.line 5).timer = .idle ∧
    ((after (.stop .a 0 []) prot5).line 5).timer = .frozen 30000 := by decide +kernel

theorem test_witness_reset_in_force : inReset.mc.resetInForce.isSome ∧ Instr.supplyFalls ≠ .powerOn ∧
    Instr.supplyFalls ≠ .brownOut ∧ Instr.supplyFalls ≠ .resetPin ∧ Instr.supplyFalls ≠ .resetEnd false false ∧
    Instr.supplyFalls ≠ .resetEnd false true ∧ Instr.supplyFalls ≠ .resetEnd true false ∧
    Instr.supplyFalls ≠ .resetEnd true true := by decide +kernel

theorem test_witness_port_interface : active.mc.resetInForce = none ∧
    (32 < (List.replicate 33 0#8).length ∧ [0#8].length ≠ Request.status.payloadLen) ∧
    Request.start.payloadLen = 0 ∧ Request.start.openToM = false ∧
    State.reset.mc.mode = .loading ∧ Request.start.inLoading = false ∧ Request.start.openToM = false ∧
    active.mc.mode ≠ .loading ∧ Request.learn.long = true ∧ [0#8].length = Request.learn.payloadLen ∧
    4 ≤ ((threeOfB.setPort .b { threeOfB.port .b with inFlight := 4 }).port .b).outstanding ∧
    32 < (33#8).toNat ∧ (32#8).toNat ≤ 32 ∧ ∀ q ∈ allRequests, q.code ≠ 0x08#8 := by decide +kernel

theorem test_witness_identify : State.reset.mc.resetInForce = none := rfl

theorem test_witness_reading_requests : active.mc.resetInForce = none ∧ active.mc.mode ≠ .loading ∧
    16 ≤ (16#8).toNat ∧ 6 ≤ (6#8).toNat ∧ (statusReply .a active).payload.getLast? = some 4 := by decide +kernel

/-- The two records differ in the learn accumulator alone, which READ_LINE leaves out. -/
theorem test_witness_read_line : lineReply (onBus 5) = lineReply { onBus 5 with learn := some ⟨1, 831⟩ } ∧
    lineConfigOk (onBus 5).cfg = true ∧ (onBus 5).rawZ.all (· ≤ 65535) = true ∧
    (onBus 5).zf.all (· ≤ 65535) = true ∧ (onBus 5).deviation.all (fun d => -32768 ≤ d && d ≤ 9999) = true ∧
    (onBus 5).count ≤ 255 ∧ (onBus 5).masked ≤ 255 ∧ (onBus 5).retryCount ≤ 255 ∧ (onBus 5).timer.ms < 2 ^ 24 ∧
    (onBus 5).passCount ≤ 255 ∧ (onBus 5).earthCount ≤ 255 := by decide +kernel

theorem test_witness_read_record : shorted.takes .readRecord .b [8, 5, 0] ∧
    shorted.takes .readRecord .b (encKey (.lineShort 5)) ∧ full.takes .readRecord .a (encKey (.lineLow 1)) ∧
    shorted.faults.records.find? (fun r => r.key = .lineShort 5) = some (shortRecord .activeUnack true) ∧
    (∀ r ∈ full.faults.records, r.key ≠ .ampFail 2) ∧ (∀ d ∈ shorted.faults.deferred, d.key ≠ .ampFail 2) ∧
    (full.faults.deferred.map (·.key))[1]? = some (.ampFail 2) ∧
    (full.faults.deferred.map (·.key))[0]? ≠ some (.ampFail 2) := by decide +kernel

theorem test_witness_list_records : full.takes .listRecords .a [47] ∧ full.takes .listRecords .m [48] ∧
    (47#8).toNat < full.faults.records.length ∧ shorted.faults.records.length ≤ (1#8).toNat := by decide +kernel

theorem test_witness_listen_leave : shorted.takes .listen .a [] ∧ (shorted.port .a).listening = true ∧
    (shorted.port .b).listening = false ∧ shorted.takes .listen .b [] ∧ shorted.takes .leave .a [] ∧
    shorted.takes .leave .b [] ∧ shorted.tableOk = true ∧ shorted.faults.deferred = [] := by decide +kernel

theorem test_witness_set_notify : State.takes shorted .setNotify .a [4, 9, 1] := by decide +kernel

theorem test_witness_lowest_eligible : shorted.lowestEligible .a = some 2 ∧ shorted.takes .fetch .b [] ∧
    shorted.lowestEligible .b = none := by decide +kernel

theorem test_witness_fetch : shorted.takes .fetch .a [] ∧ shorted.tableOk = true ∧
    shorted.lowestEligible .a = some 2 ∧ shorted.faults.deferred = [] ∧
    shorted.faults.records.find? (fun r => r.marks.get .a && r.key.cls = 2) =
      some (shortRecord .activeUnack true) := by decide +kernel

theorem test_witness_peek : shorted.takes .peek .a [] ∧ shorted.takes .peek .b [] ∧
    shorted.lowestEligible .b = none ∧ shorted.lowestEligible .a = some 2 := by decide +kernel

theorem test_witness_done : shorted.takes .done .a [] ∧ (∀ c : ClassNo, (shorted.port .a).inService.has c = false) ∧
    serving.takes .done .a [] ∧ (serving.port .a).inService.has 2 = true ∧
    (∀ d : ClassNo, d < 2 → (serving.port .a).inService.has d = false) := by decide +kernel

theorem test_witness_done_class : serving.takes .doneClass .a [8] ∧ 7 < (8#8).toNat ∧
    serving.takes .doneClass .a [7] ∧ (7 : ClassNo).val = (7#8).toNat ∧ (serving.port .a).inService.has 7 = false ∧
    (4 : ClassNo).val = (4#8).toNat ∧ (serving.port .a).inService.has 4 = true := by decide +kernel

theorem test_witness_read_completion : completed.takes .readCompletion .a [] ∧
    (completed.port .a).completions = ⟨0x2C, .restore, .restored⟩ :: [] ∧ (completed.port .a).latch = false ∧
    completed.takes .readCompletion .m [] ∧ (completed.port .m).completions = [] ∧ completed.portsOk = true := by
  decide +kernel

theorem test_witness_reset_port : shorted.takes .resetPort .a [] ∧ shorted.tableOk = true ∧
    shorted.faults.deferred = [] ∧ shorted.emergency = false := by decide +kernel

theorem test_witness_raise_clear_by_record :
    (withRecord .activeUnack true).faults.records.find? (fun r => r.key = .lineShort 5) =
      some (shortRecord .activeUnack true) ∧
    (withRecord .activeAck true).faults.records.find? (fun r => r.key = .lineShort 5) =
      some (shortRecord .activeAck true) ∧
    (withRecord .clearedUnack true).faults.records.find? (fun r => r.key = .lineShort 5) =
      some (shortRecord .clearedUnack true) ∧
    (withRecord .closed true).faults.records.find? (fun r => r.key = .lineShort 5) =
      some (shortRecord .closed true) := by decide +kernel

theorem test_witness_raise_clear_without_record :
    (∀ r ∈ shorted.faults.records, r.key ≠ .ampFail 2) ∧ shorted.faults.records.length < 48 ∧
    (∀ r ∈ full.faults.records, r.key ≠ .lineLow 1) ∧ 48 ≤ full.faults.records.length ∧
    (∀ d ∈ full.faults.deferred, d.key ≠ .lowSupply) ∧ (∃ d ∈ full.faults.deferred, d.key = .lineLow 1) := by
  decide +kernel

/-- The removal of the CLOSED record of line 5 releases AMP_FAIL, the lower class, and not LINE_LOW, the older one. -/
theorem test_witness_removal :
    full.faults.records.find? (fun r => r.key = .lineShort 5) = some (shortRecord .closed false) ∧
    full.faults.deferred = [⟨.lineLow 1, none, 3⟩] ++ ⟨.ampFail 2, none, 4⟩ :: [] ∧
    FaultKey.cls (.ampFail 2) < FaultKey.cls (.lineLow 1) ∧ full.faults.records.length = 48 ∧
    (full.faults.records.map (·.key) ++ full.faults.deferred.map (·.key)).Nodup ∧
    ((checkRemoval (.lineShort 5) full).faults.records.any fun r => r.key = .ampFail 2) = true ∧
    (withRecord .closed false).faults.deferred = [] := by decide +kernel

theorem test_witness_ack : shorted.takes .ack .b [8, 5, 0] ∧ shorted.takes .ack .b (encKey (.lineShort 5)) ∧
    (∀ r ∈ shorted.faults.records, r.key ≠ .ampFail 2) ∧
    (withRecord .activeAck true).takes .ack .b (encKey (.lineShort 5)) ∧
    (withRecord .clearedUnack true).takes .ack .b (encKey (.lineShort 5)) := by decide +kernel

theorem test_witness_ack_all : shorted.takes .ackAll .m [] ∧ shorted.tableOk = true ∧ shorted.faults.deferred = [] := by decide +kernel

theorem test_witness_bad_numbers : active.takes .isolate .a [16] ∧ 16 ≤ byteAt [16] 0 ∧
    active.takes .configureLine .a (fields5.set 0 16) ∧ active.takes .cover .a [6] ∧ 6 ≤ byteAt [6] 0 := by
  decide +kernel

/-- Line 5 locked, with a RESTORE of Port A waiting. -/
def locked5 : State :=
  oneInFlight (with5 active fun l =>
    { l with state := .locked, selector := .off, cause := .lockout, probeDue := true, waiting := some (askA .restore) })

theorem test_witness_isolate : active.takes .isolate .a (linePayload 5) ∧ (active.line 5).state = .connected ∧
    active.moveOutlasts 5 = true ∧ active.learnsOn 5 = false ∧ gone5.takes .isolate .a (linePayload 5) ∧
    (gone5.line 5).state = .disabled ∧ off5.takes .isolate .a (linePayload 5) ∧ (off5.line 5).state = .isolated ∧
    (off5.line 5).cause = .command ∧ (off5.line 5).waiting = none ∧ probe5.takes .isolate .a (linePayload 5) ∧
    (probe5.line 5).state = .probing ∧ probe5.moveOutlasts 5 = true ∧ locked5.takes .isolate .a (linePayload 5) ∧
    (locked5.line 5).state = .locked := by decide +kernel

theorem test_witness_restore : gone5.takes .restore .a (linePayload 5) ∧ active.takes .restore .a (linePayload 5) ∧
    locked5.takes .restore .a (linePayload 5) ∧ (locked5.line 5).waiting ≠ none ∧
    off5.takes .restore .a (linePayload 5) ∧ (off5.line 5).waiting = none ∧ off5.moveOutlasts 5 = true ∧
    off5.learnsOn 5 = false ∧ (off5.runs && !off5.emergency) = true ∧ off5.chan.inFlight.isSome ∧
    { off5 with mc.flagA := true }.takes .restore .a (linePayload 5) ∧
    ({ off5 with mc.flagA := true }.runs && !{ off5 with mc.flagA := true }.emergency) = false := by decide +kernel

theorem test_witness_enable : gone5.takes .enableLine .a (linePayload 5) ∧ (gone5.line 5).state = .disabled ∧
    active.takes .enableLine .a (linePayload 5) ∧ (active.line 5).state ≠ .disabled ∧
    (active.setAmp 4 (resetAmp 4)).takes .enableAmp .a (ampPayload 4) ∧
    ((active.setAmp 4 (resetAmp 4)).amp 4).state = .disabled ∧ active.takes .enableAmp .a (ampPayload 4) ∧
    (active.amp 4).state ≠ .disabled := by decide +kernel

theorem test_witness_disable_line : { active with mc.flagA := true }.takes .disableLine .a (linePayload 5) ∧
    { active with mc.flagA := true }.emergency = true ∧ gone5.takes .disableLine .a (linePayload 5) ∧
    gone5.emergency = false ∧ shorted.takes .disableLine .a (linePayload 5) ∧ shorted.emergency = false ∧
    (shorted.line 5).state ≠ .disabled ∧ shorted.moveOutlasts 5 = true ∧ shorted.tableOk = true ∧
    locked5.takes .disableLine .a (linePayload 5) ∧ locked5.emergency = false ∧ locked5.moveOutlasts 5 = true ∧
    ((after (.disableLine .a 0 [5]) locked5).port .a).completions = [⟨0x2C, .restore, .restoreAborted⟩] := by
  decide +kernel

theorem test_witness_configure_line : off5.takes .configureLine .a fields5 ∧ byteAt fields5 0 = (5 : LineNo).val ∧
    off5.emergency = false ∧ (off5.line 5).state ≠ .connected ∧ (off5.line 5).state ≠ .probing ∧
    (1 : AmpNo).val = byteAt fields5 1 ∧ (off5.amp 1).cfg.role = .duty ∧
    active.takes .configureLine .a fields5 ∧ (active.line 5).state = .connected ∧
    off5.takes .configureLine .a (fields5.set 1 6) ∧ 6 ≤ byteAt (fields5.set 1 6) 1 ∧
    off5.takes .configureLine .a (fields5.set 1 4) ∧ (4 : AmpNo).val = byteAt (fields5.set 1 4) 1 ∧
    (off5.amp 4).cfg.role = .standby ∧ { off5 with mc.flagA := true }.takes .configureLine .a fields5 ∧
    { off5 with mc.flagA := true }.emergency = true := by decide +kernel

/-- Every field beyond a limit of its range, the hysteresis then below the windows. -/
theorem test_witness_configure_line_clamped :
    let b := [5, 1, 0xFF, 0xFF, 0xFF, 0xFF, 0xFF, 0xFF, 0xFF, 0xFF, 0xFF, 0xFF, 0xFF, 9, 0, 16, 1, 128, 1, 0, 8]
    off5.takes .configureLine .a b ∧ byteAt b 0 = (5 : LineNo).val ∧ (1 : AmpNo).val = byteAt b 1 ∧
      ((after (.configureLine .a 0 b) off5).line 5).cfg =
        ⟨true, 1, 4095, some 65534, 999, 9999, 255, 65534, 4, 1, 15, true, 127, true, 1, 7⟩ ∧
      ((after (.configureLine .a 0 ((fields5.set 6 0).set 7 9)) off5).line 5).cfg.hyst = 8 := by decide +kernel

/-- A changed reference; the earth check turned off; and a line off for protection that reaches its new limit, or not. -/
theorem test_witness_configure_line_runtime :
    ((after (.configureLine .a 0 (fields5.set 5 0x42)) off5).line 5).cfg.zref ≠ (off5.line 5).cfg.zref ∧
    ((after (.configureLine .a 0 fields5) off5).line 5).cfg.zref = (off5.line 5).cfg.zref ∧
    (off5.line 5).cfg.earthCheck = true ∧
    ((after (.configureLine .a 0 (fields5.set 16 0)) off5).line 5).cfg.earthCheck = false ∧
    prot5.takes .configureLine .a fields5 ∧ (prot5.line 5).state = .isolated ∧ (prot5.line 5).cause = .protective ∧
    (prot5.line 5).retryCount < ((after (.configureLine .a 0 fields5) prot5).line 5).cfg.retryLimit ∧
    ((after (.configureLine .a 0 fields5) (with5 prot5 fun l => { l with retryCount := 3 })).line 5).state = .locked ∧
    byteAt fields5 1 ≤ 5 := by decide +kernel

theorem test_witness_selector : (active.line 5).selector ≠ .off ∧ (active.line 5).selector = .bus 1 ∧
    active.learnsOn 5 = false ∧ learning.learnsOn 12 = true ∧
    learning.chan.job = some ⟨12, { askA .learn with tag := 0x51 }, 8⟩ ∧
    0 < (learning.port .a).inFlight ∧ (learning.port .a).session = 0 := by decide +kernel

theorem test_witness_move : (active.line 5).current = 1 ∧ (active.line 5).state = .connected ∧
    (active.line 0).current ≠ 1 ∧ (off5.line 5).current = 1 ∧ (off5.line 5).state ≠ .connected ∧
    (moveLines 1 4 active).move = some [4, 5, 6, 7] := by decide +kernel

theorem test_witness_completion : (askA .restore).session = (probe5.port .a).session ∧
    0 < (probe5.port .a).inFlight ∧ (active.port .a).inFlight = 0 := by decide +kernel

theorem test_witness_learn : active.takes .learn .a (linePayload 5) ∧ active.emergency = false ∧ active.runs = true ∧
    active.chan.job = none ∧ (active.line 5).state = .connected ∧ active.chan.inFlight.isSome ∧
    off5.takes .learn .a (linePayload 5) ∧ (off5.line 5).state ≠ .connected ∧
    learning.takes .learn .a (linePayload 5) ∧ learning.chan.job.isSome ∧ standing.takes .learn .a (linePayload 5) ∧
    standing.runs = false ∧ { active with mc.flagA := true }.takes .learn .a (linePayload 5) ∧
    { active with mc.flagA := true }.emergency = true := by decide +kernel

/-- A manual COVER of amplifier 1 waits. -/
def queued : State :=
  { active with co.queue := [⟨1, .cover, .manual, some (askA .cover), 0⟩] }

/-- A return of amplifier 1 in flight, in its verify, as Port A asked for it. -/
def returning : State :=
  let s := oneInFlight (covered.setAmp 1 { covered.amp 1 with carrying := 1 })
  { (with5 s fun l => { l with current := 1, selector := .bus 1 }) with
    co.op := some ⟨.returnLines, 1, 4, .manual, some (askA .returnLines), 0, some 0, .verifying⟩
    chan.inFlight := some ⟨.amp 1, .verify, none, some 1, none, false, 20⟩ }

/-- A cover of amplifier 1 by standby 4 in its verify, as Port A asked for it. -/
def covering : State :=
  let s := (active.setAmp 1 { active.amp 1 with carrying := 4 }).setAmp 4
    { active.amp 4 with state := .busy, coveredAmp := some 1 }
  oneInFlight { (with5 s fun l => { l with current := 4, selector := .bus 4 }) with
    co.op := some ⟨.cover, 1, 4, .manual, some (askA .cover), 0, none, .verifying⟩
    chan.inFlight := some ⟨.amp 4, .verify, none, some 1, none, false, 20⟩ }

/-- A manual COVER of amplifier 0 waits before a manual RETURN of amplifier 1, which standby 4 covers. -/
def blocked : State :=
  { covered with co.queue := [⟨0, .cover, .manual, some (askA .cover), 0⟩, ⟨1, .returnLines, .manual, none, 1⟩] }

theorem test_witness_grant : active.chosenStandby 1 = some 4 ∧ returning.co.op.isSome ∧ standing.runs = false ∧
    queued.co.queue = [] ++ ⟨1, .cover, .manual, some (askA .cover), 0⟩ :: [] ∧ queued.co.op = none ∧
    queued.runs = true ∧ queued.emergency = false ∧ queued.chosenStandby 1 = some 4 ∧
    queued.moveStarts (queued.amp 1).carrying 4 = true ∧
    (∀ e ∈ { queued with mc.flagA := true }.co.queue, { queued with mc.flagA := true }.passesOver e = true) := by
  decide +kernel

/-- 6.9: with no standby free, the COVER at the head is passed over and the RETURN behind it is granted. -/
theorem test_witness_grant_passes_over :
    let s := blocked.setAmp 5 { blocked.amp 5 with state := .disabled }
    s.co.queue = [⟨0, .cover, .manual, some (askA .cover), 0⟩] ++ ⟨1, .returnLines, .manual, none, 1⟩ :: [] ∧
      s.co.op = none ∧ s.runs = true ∧ (∀ x ∈ s.co.queue.take 1, s.passesOver x = true) ∧ s.emergency = false ∧
      s.moveStarts (s.amp 1).carrying 1 = true ∧
      (grantAttempt arrival s).co.op = some ⟨.returnLines, 1, 4, .manual, none, 1, some 0, .moving⟩ := by decide +kernel

/-- The return of amplifier 1 fails its verify: back to standby 4, or, with standby 4 faulty, to standby 5. -/
theorem test_witness_failed_return :
    let s := returning.setAmp 4 { returning.amp 4 with state := .faulty, coveredAmp := none }
    let none5 := s.setAmp 5 { s.amp 5 with state := .disabled }
    (returning.amp 4).state = .busy ∧ (returning.amp 4).coveredAmp = some 1 ∧ returning.moveStarts 1 4 = true ∧
      (1023 : Code).val < (returning.amp 1).cfg.amin ∧ (s.amp 4).state ≠ .busy ∧ s.chosenStandby 1 = some 5 ∧
      s.co.queue = [] ∧ s.moveStarts (s.amp 1).carrying 5 = true ∧ none5.chosenStandby 1 = none ∧
      (∀ x ∈ none5.co.queue, none5.passesOver x = true) ∧
      ((after (.measurementCompletion (.amp 1023 false false)) returning).co.op.map (·.phase)) = some .movingBack ∧
      ((after (.measurementCompletion (.amp 1023 false false)) s).amp 5).state = .busy ∧
      ((after (.measurementCompletion (.amp 1023 false false)) none5).co.queue) = [⟨1, .cover, .auto, none, 0⟩] ∧
      ((after (.measurementCompletion (.amp 1023 false false)) none5).port .a).completions =
        [⟨0x2C, .returnLines, .returnFailed⟩] := by decide +kernel

/-- The last relay of the move back of a changeover of amplifier 1, which is in a state and condition. -/
def goingBack (kind : CoKind) (st : AmpState) (c : Condition) (standby5 : AmpState) : State :=
  let s := (active.setAmp 1 { active.amp 1 with state := st, condition := c }).setAmp 4
    { active.amp 4 with state := .faulty, condition := .fail }
  let s := s.setAmp 5 { s.amp 5 with state := standby5 }
  oneInFlight { (with5 s fun l => { l with relayLeft := some 3 }) with
    move := some [5], co.op := some ⟨kind, 1, 4, .manual, some (askA .cover), 3, some 2, .movingBack⟩ }

theorem test_witness_move_back_done :
    let done := fun s => after (.relayCompletion 5) s
    ((goingBack .cover .failed .fail .faulty).line 5).relayLeft.isSome ∧
      (goingBack .cover .failed .fail .faulty).move = some [5] ∧
      (goingBack .cover .failed .fail .faulty).chan.inFlight.isSome ∧
      (goingBack .cover .failed .fail .faulty).chosenStandby 1 = none ∧
      (goingBack .cover .failed .fail .free).chosenStandby 1 = some 5 ∧
      (goingBack .cover .failed .fail .free).moveStarts 1 5 = true ∧
      (done (goingBack .cover .failed .fail .faulty)).co.queue = [⟨1, .cover, .auto, some (askA .cover), 3⟩] ∧
      (done (goingBack .cover .failed .fail .free)).co.op.map (·.standby) = some 5 ∧
      ((done (goingBack .cover .failed .normal .faulty)).amp 1).state = .healthy ∧
      (done (goingBack .cover .suspect .normal .faulty)).co.queue = [⟨1, .cover, .manual, some (askA .cover), 3⟩] ∧
      (done (goingBack .returnLines .covered .fail .faulty)).co.queue = [] ∧
      (done (goingBack .returnLines .failed .fail .faulty)).co.queue = [⟨1, .cover, .auto, none, 2⟩] := by decide +kernel

/-- Amplifier `k` in a state and condition, one abnormal or normal reading short of the other condition, its AMP slot in
flight. -/
def nearly (k : AmpNo) (st : AmpState) (c : Condition) (s : State) : State :=
  let s := s.setAmp k { s.amp k with
    state := st, condition := c, candidate := some (if c = .normal then .fail else .normal), count := 2 }
  { s with chan.inFlight := some ⟨.amp k, .scan, none, some 1, some 0, false, 20⟩ }

/-- What an abnormal and a normal reading leave. -/
def low (s : State) : State := after (.measurementCompletion (.amp 1023 false false)) s
def well (s : State) : State := after (.measurementCompletion (.amp 1024 false false)) s

/-- An operation on amplifier 0 is in flight. -/
def elsewhere (s : State) : State := { s with co.op := some ⟨.returnLines, 0, 0, .auto, none, 9, none, .moving⟩ }

theorem test_witness_debounce_confirms :
    debounce .normal (some .fail) 2 (requiredCondition (factoryAmp 1)) .fail = ⟨.fail, none, 0, true⟩ ∧
    debounce .fail (some .normal) 2 (requiredCondition (factoryAmp 1)) .normal = ⟨.normal, none, 0, true⟩ ∧
    (debounce .normal none 0 (requiredCondition (factoryAmp 1)) .fail).changed = false ∧
    (nearly 1 .healthy .normal active).chan.inFlight = some ⟨.amp 1, .scan, none, some 1, some 0, false, 20⟩ ∧
    ((nearly 1 .healthy .normal active).amp 1).stamp = 1 ∧ (nearly 1 .healthy .normal active).mc.mode = .active ∧
    (nearly 1 .healthy .normal active).move ≠ some [] ∧ (nearly 1 .healthy .normal active).mc.resetInForce = none ∧
    ((well (nearly 1 .suspect .normal active)).amp 1).state = .healthy := by decide +kernel

theorem test_witness_duty_fails :
    ((low (nearly 1 .relieved .normal active)).amp 1).state = .covered ∧
    ((low (nearly 1 .covered .normal active)).amp 1).state = .covered ∧
    (nearly 1 .healthy .normal active).chosenStandby 1 = some 4 ∧ (nearly 1 .healthy .normal active).co.op = none ∧
    (nearly 1 .healthy .normal active).moveStarts ((nearly 1 .healthy .normal active).amp 1).carrying 4 = true ∧
    (low (nearly 1 .suspect .normal active)).co.op = some ⟨.cover, 1, 4, .auto, none, 0, none, .moving⟩ ∧
    (low (nearly 1 .healthy .normal covering)).co.op.map (·.origin) = some .auto ∧
    (low (nearly 1 .healthy .normal (elsewhere active))).co.queue = [⟨1, .cover, .auto, none, 0⟩] ∧
    (low (nearly 1 .healthy .normal (elsewhere queued))).co.queue =
      [⟨1, .cover, .auto, some (askA .cover), 0⟩] ∧
    (low (nearly 1 .failed .normal (elsewhere { active with co.queue := [⟨1, .returnLines, .auto, none, 0⟩] }))).co.queue =
      [⟨1, .cover, .auto, none, 0⟩] ∧
    (let s := nearly 1 .healthy .normal ((active.setAmp 4 { active.amp 4 with state := .faulty }).setAmp 5
        { active.amp 5 with state := .faulty })
     s.chosenStandby 1 = none ∧ s.co.queue = [] ∧
       (low s).faults.records.map (·.key) = [.ampFail 1, .noCover 1]) := by decide +kernel

theorem test_witness_standby_fails :
    (let s := nearly 4 .free .normal active
     (s.amp 4).cfg.role = .standby ∧ ((low s).amp 4).state = .faulty) ∧
    (let s := nearly 4 .busy .normal covering
     (s.amp 4).coveredAmp = some 1 ∧ s.co.op = covering.co.op ∧ s.moveStarts 4 1 = true ∧
       (low s).co.op.map (·.phase) = some .movingBack) ∧
    (let s := nearly 4 .busy .normal (elsewhere covered)
     (s.amp 1).coverSeq = some 0 ∧ (s.amp 1).state = .covered ∧ ((low s).amp 1).state = .failed ∧
       (low s).co.queue = [⟨1, .cover, .auto, none, 0⟩]) ∧
    (let s := nearly 4 .busy .normal (elsewhere (covered.setAmp 1 { covered.amp 1 with state := .relieved }))
     ((low s).amp 1).state = .healthy ∧ (low s).co.queue = [⟨1, .returnLines, .auto, none, 0⟩]) ∧
    (let s := nearly 4 .busy .normal returning
     s.co.op.map (·.duty) = some 1 ∧ ((low s).amp 1).state = .failed ∧ (low s).co.queue = []) ∧
    let s := nearly 4 .busy .normal (elsewhere { covered with co.queue := [⟨1, .returnLines, .manual, none, 6⟩] })
    (low s).co.queue = [⟨1, .cover, .auto, none, 6⟩] := by decide +kernel

theorem test_witness_condition_normal :
    ((well (nearly 1 .covered .fail active)).amp 1).state = .covered ∧
    ((well (nearly 4 .faulty .fail active)).amp 4).state = .free ∧
    (let s := nearly 5 .faulty .fail ((active.setAmp 4 { active.amp 4 with state := .disabled }).setAmp 1
        { active.amp 1 with state := .failed })
     let s := { s with co.queue := [⟨1, .cover, .auto, none, 3⟩] }
     s.co.queue.head? = some ⟨1, .cover, .auto, none, 3⟩ ∧ s.chosenStandby 1 = none ∧ s.moveStarts (s.amp 1).carrying 5 = true ∧
       (∀ j, (s.amp j).cfg.role = .duty → (s.amp j).carrying ≠ 5) ∧ ((well s).amp 5).state = .busy) ∧
    ((well (nearly 1 .failed .fail covering)).amp 1).state = .failed ∧
    ((well (nearly 1 .failed .fail (elsewhere queued))).amp 1).state = .healthy ∧
    (well (nearly 1 .failed .fail (elsewhere { queued with co.queue := [⟨1, .cover, .auto, none, 3⟩] }))).co.queue = [] ∧
    (well (nearly 1 .failed .fail (elsewhere { covered with co.queue := [⟨1, .cover, .auto, none, 3⟩] }))).co.queue =
      [⟨1, .returnLines, .auto, none, 3⟩] := by decide +kernel

theorem test_witness_cover : active.takes .cover .a (ampPayload 1) ∧ active.emergency = false ∧ active.runs = true ∧
    (active.amp 1).cfg.role = .duty ∧ (active.amp 1).state = .healthy ∧ active.co.op = none ∧ active.co.queue = [] ∧
    (∃ k : AmpNo, (active.amp k).cfg.role = .standby ∧ (active.amp k).cfg.enabled = true) ∧
    (∃ n, (active.line n).current = (active.amp 1).carrying ∧ (active.line n).state = .connected ∧
      (active.line n).selector ≠ .bus 4) ∧
    active.takes .cover .a (ampPayload 4) ∧ (active.amp 4).cfg.role ≠ .duty ∧
    queued.takes .cover .a (ampPayload 1) ∧ (queued.co.queue.any fun e => e.duty = 1) = true ∧
    returning.takes .cover .a (ampPayload 0) ∧ returning.co.op.isSome ∧ (returning.amp 0).state = .healthy := by
  decide +kernel

theorem test_witness_cover_no_standby :
    let s := (active.setAmp 4 { active.amp 4 with cfg.enabled := false }).setAmp 5 { active.amp 5 with cfg.role := .duty }
    s.takes .cover .a (ampPayload 1) ∧
      ∀ k : AmpNo, ¬((s.amp k).cfg.role = .standby ∧ (s.amp k).cfg.enabled = true) := by decide +kernel

theorem test_witness_return : covered.takes .returnLines .a (ampPayload 1) ∧ covered.emergency = false ∧
    covered.runs = true ∧ (covered.amp 1).state = .covered ∧ covered.co.op = none ∧ covered.co.queue = [] ∧
    (∃ n, (covered.line n).current = (covered.amp 1).carrying ∧ (covered.line n).state = .connected ∧
      (covered.line n).selector ≠ .bus 1) ∧
    active.takes .returnLines .a (ampPayload 1) ∧ (active.amp 1).state = .healthy ∧
    returning.takes .returnLines .a (ampPayload 1) ∧ (returning.co.op.any fun o => o.duty = 1) = true := by
  decide +kernel

theorem test_witness_disable_amp : active.takes .disableAmp .a (ampPayload 5) ∧ active.emergency = false ∧
    (active.amp 5).state ≠ .disabled ∧ (active.amp 5).coveringStandby = none ∧ active.tableOk = true ∧
    (∃ n, (active.line n).cfg.enabled = true ∧ ((active.line n).cfg.home = 1 ∨ (active.line n).current = 1)) ∧
    (active.setAmp 5 (resetAmp 5)).takes .disableAmp .a (ampPayload 5) ∧
    ((active.setAmp 5 (resetAmp 5)).amp 5).state = .disabled := by decide +kernel

/-- Amplifier 1 covered by standby 4 with every line out of supervision. -/
def idleCovered : State :=
  { covered with lines := State.reset.lines.map fun l => { l with cfg.enabled := false, selector := .off } }

theorem test_witness_disable_covered_amp : idleCovered.takes .disableAmp .a (ampPayload 1) ∧
    (idleCovered.amp 1).coveringStandby = some 4 ∧ (idleCovered.amp 1).state = .covered ∧ idleCovered.co.queue = [] ∧
    ((after (.disableAmp .a 0 (ampPayload 1)) idleCovered).amp 4).state = .free := by decide +kernel

theorem test_witness_configure_amp :
    let s := active.setAmp 1 (resetAmp 1)
    s.takes .configureAmp .a (ampPayload 1 ++ [1, 4, 0, 3, 3]) ∧ s.emergency = false ∧ (s.amp 1).state = .disabled ∧
      (∃ n, (s.line n).cfg.home = 1 ∨ (s.line n).current = 1) ∧
      active.takes .configureAmp .a (ampPayload 1 ++ [1, 4, 0, 3, 3]) ∧ (active.amp 1).state ≠ .disabled ∧
      (s.amp 1).cfg.role = .duty := by decide +kernel

theorem test_witness_start : active.takes .start .a [] ∧ active.runs = true ∧ standing.takes .start .a [] ∧
    standing.mc.mode = .standby ∧ (standing.line 5).state = .connected ∧ (standing.line 5).probeDue = false ∧
    standing.emergency = false ∧ { active with mc.mode := .stopping }.takes .start .a [] := by decide +kernel

theorem test_witness_start_due :
    let s := with5 standing fun l => { l with state := .isolated, selector := .off, cause := .command, probeDue := true }
    s.takes .start .a [] ∧ s.emergency = false ∧ (s.line 5).probeDue = true ∧ s.mc.mode = .standby ∧
      ((after (.start .a 0 []) s).line 5).state = .probing := by decide +kernel

theorem test_witness_stop : probe5.takes .stop .a [] ∧ probe5.emergency = false ∧ probe5.runs = true ∧
    probe5.faults.records = [] ∧ probe5.chan.inFlight.isSome ∧ (probe5.line 5).state = .probing ∧
    shorted.takes .stop .a [] ∧
    (∃ r ∈ shorted.faults.records, r.key.cls ≤ 2 ∧ (r.lifecycle = .activeUnack ∨ r.lifecycle = .clearedUnack)) ∧
    standing.takes .stop .a [] ∧ standing.runs = false ∧ { active with mc.flagA := true }.takes .stop .a [] ∧
    { active with chan.inFlight := none }.takes .stop .a [] ∧ active.co.op = none ∧ active.move ≠ some [] := by
  decide +kernel

/-- Line 5 waits for its probe while the flag of Port A stands. -/
def due5 : State :=
  { (with5 active fun l => { l with state := .isolated, selector := .off, cause := .command, probeDue := true }) with
    mc.flagA := true }

theorem test_witness_emergency : active.takes .emergencyOn .a [] ∧ active.mc.flagA = false ∧
    due5.takes .emergencyOn .a [] ∧ due5.mc.flagA = true ∧ due5.takes .emergencyOff .a [] ∧
    active.takes .emergencyOff .a [] ∧ active.mc.resetInForce = none ∧
    ¬due5.emergencyStands { due5 with mc := { due5.mc with flagA := false } } ∧ (due5.line 5).probeDue = true ∧
    (due5.line 4).probeDue = false ∧ ((after (.emergencyOff .a 0 []) due5).line 5).state = .probing := by
  decide +kernel

theorem test_witness_supply : active.mc.resetInForce = none ∧ active.mc.supply = .normal ∧
    (after .supplyFalls active).mc.resetInForce = none ∧ (after .supplyFalls active).mc.supply = .low := by
  decide +kernel

theorem test_witness_reset_end : inReset.mc.resetInForce = some ⟨true, .powerOn⟩ := by decide +kernel

theorem test_witness_system_and_store : active.takes .configureSystem .a [17, 0, 3, 1] ∧ active.emergency = false ∧
    { active with mc.flagA := true }.takes .configureSystem .a [4, 20, 3, 1] ∧
    { active with mc.flagA := true }.emergency = true ∧ active.takes .store .a [23] ∧ 23 ≤ (23#8).toNat ∧
    active.takes .store .a [22] ∧ (22 : RecordNo).val = (22#8).toNat ∧ active.store.write = none ∧
    active.mc.supply = .normal ∧ writing.takes .store .a [22] ∧ writing.store.write.isSome ∧
    { active with mc.supply := .low }.takes .store .a [22] := by decide +kernel

theorem test_witness_write : active.mc.resetInForce = none ∧ active.store.write = none ∧
    writing.mc.resetInForce = none ∧
    writing.store.write = some ⟨12, askA .store, buildRecord 12 active, 25⟩ ∧
    (after .writeTimeout writing).store.reportsDue = 1 ∧
    (after .writeCompletion (after .writeTimeout writing)).store.reportsDue = 0 := by decide +kernel

/-- A write in flight while the report of a timed-out one may still come. -/
theorem test_witness_late_report : ∃ w, { writing with store.reportsDue := 1 }.store.write = some w ∧
    0 < { writing with store.reportsDue := 1 }.store.reportsDue := ⟨_, rfl, by decide⟩

/-- The load at its last record. -/
def lastRead : State := { State.reset with store.judged := 22 }

theorem test_witness_load : State.reset.mc.resetInForce = none ∧ State.reset.mc.mode = .loading ∧
    State.reset.store.judged = (0 : RecordNo).val ∧ State.reset.store.areas.get 0 = .unknown ∧
    (List.replicate 24 0xFF#8).length = (subjectOf 0).recordLen ∧ lastRead.store.judged = (22 : RecordNo).val ∧
    lastRead.co.queue = [] ∧ (lastRead.line 5).state = .disabled ∧ (lastRead.line 5).probeDue = false ∧
    (lastRead.amp 4).state = .disabled ∧ (after (.recordRead (buildRecord 22 State.reset)) lastRead).mc.mode = .settling ∧
    ((after .unreadable lastRead).amp 4).state = .free ∧ (after .unreadable lastRead).mc.mode = .standby ∧
    (after .unreadable lastRead).faults.records.map (·.key) = .storeFault .system :: allLines.map .uncalibrated := by
  decide +kernel

/-- R3: a home that is no duty amplifier becomes the lowest-numbered duty amplifier; R72: an amplifier not enabled. -/
theorem test_witness_load_roles :
    let s := (lastRead.setAmp 0 { lastRead.amp 0 with cfg.role := .standby, cfg.enabled := false })
    (s.amp (s.line 0).cfg.home).cfg.role = .standby ∧ (s.amp 1).cfg.role = .duty ∧
      (∀ i : AmpNo, i < 1 → (s.amp i).cfg.role = .standby) ∧ ((after .unreadable s).line 0).cfg.home = 1 ∧
      ((after .unreadable s).line 0).current = 1 ∧ ((after .unreadable s).amp 0).state = .disabled := by decide +kernel

/-- R170: an area whose write a reset has cut off. -/
theorem test_witness_load_cut_off :
    let s := after (.resetEnd false false) (after .resetPin writing)
    (s.store.areas.get 12 = .cutOff ∧ s.store.areas.get 11 = .unknown) ∧
      let s := { s with store.judged := 12 }
      judgeRecord 12 (buildRecord 12 active) = .noCause ∧ after (.recordRead (buildRecord 12 active)) s = s ∧
        (List.replicate 24 0xFF#8).length = (subjectOf 12).recordLen ∧
        judgeRecord 12 (List.replicate 24 0xFF) = .blank ∧
        (after (.recordRead (List.replicate 24 0xFF)) s).recordStatus 12 = ⟨.defaulted, .blank⟩ := by decide +kernel

/-- The front end is free in ACTIVE. -/
def free : State := { active with chan.inFlight := none }

/-- The front end is free, line 5 probes with its relay moving, line 6 at rest, and line 7 is off. -/
def waiting : State :=
  let s := with5 free fun l => { l with state := .probing, selector := .test, relayLeft := some 3 }
  let s := s.setLine 6 { s.line 6 with state := .probing, selector := .test }
  s.setLine 7 { s.line 7 with state := .isolated, selector := .off, cause := .command }

theorem test_witness_arbiter_verify : active.chan.inFlight.isSome ∧ waiting.chan.inFlight = none ∧ waiting.runs = true ∧
    (let s := { waiting with chan.verify := [.line 5, .line 7, .line 6, .amp 2] }
     s.chan.verify = [.line 5, .line 7] ++ .line 6 :: [.amp 2] ∧
       (∀ y ∈ [Subject.line 5, .line 7], s.grantsVerify y = false) ∧ s.grantsVerify (.line 6) = true ∧
       (arrival s).chan.verify = [.line 5, .amp 2]) ∧
    (let s := { waiting with mc.mode := .stopping, chan.verify := [.line 5, .line 7] }
     (∀ y ∈ s.chan.verify, s.grantsVerify y = false) ∧ (arrival s).chan.verify = [.line 5] ∧
       (arrival s).mc.mode = .standby) := by decide +kernel

theorem test_witness_arbiter_confirm :
    (let s := { waiting with chan.confirm := [.line 7, .amp 2, .line 4], chan.rotation := .scan }
     s.chan.confirm = [.line 7] ++ .amp 2 :: [.line 4] ∧ s.grantsConfirm (.line 7) = false ∧
       s.grantsConfirm (.amp 2) = true ∧ (∀ y ∈ s.chan.verify, s.grantsVerify y = false) ∧
       (arrival s).chan.confirm = [.line 4]) ∧
    (let s := { free with chan.job := some ⟨12, askA .learn, 7⟩ }
     s.grantsLearn = true ∧ s.chan.rotation = .scan ∧ s.chan.confirm = [] ∧
       (arrival s).chan.job = some ⟨12, askA .learn, 8⟩) := by decide +kernel

/-- The round stands at the LINE slot of line 7, which is off; then come the EARTH slot of line 5, moving or not. -/
theorem test_witness_arbiter_scan :
    let s := { waiting with chan.rotation := .learn, chan.round := some ⟨[.line 7, .earth 5, .line 4], 0, 0⟩ }
    let rest := with5 s fun l => { l with relayLeft := none }
    [Target.line 7, .earth 5, .line 4].drop 0 = [.line 7] ++ .earth 5 :: [.line 4] ∧ s.slotKept (.line 7) = false ∧
      s.slotKept (.earth 5) = true ∧ rest.slotAtRest (.earth 5) = true ∧ s.slotAtRest (.earth 5) = false ∧
      (arrival rest).chan.inFlight = some ⟨.earth 5, .scan, some 1, none, some 1, false, 60⟩ ∧
      (arrival s).chan.round = some ⟨[.line 7, .earth 5, .line 4], 1, 0⟩ ∧
      ({ s with chan.round := none } : State).scanWaits = true ∧ s.grantsLearn = false := by decide +kernel

/-- The part in SETTLING, line 5 confirmed HIGH and leaking, the last slot of the round in flight. -/
def settling : State :=
  { (with5 active fun l => { l with confirmed := .high, earth := .leak, lastLc := some 655 }) with
    mc.mode := .settling, mc.settleCount := 2, chan.round := some ⟨[.line 0], 1, 0⟩ }

theorem test_witness_rounds :
    active.runs = true ∧ active.mc.mode ≠ .settling ∧ standing.runs = false ∧ settling.mc.mode = .settling ∧ settling.co.op = none ∧
    settling.mc.sys.settleRounds ≤ min 15 (settling.mc.settleCount + 1) ∧
    (∀ e ∈ settling.co.queue, settling.passesOver e = true) ∧
    min 15 ({ settling with mc.settleCount := 1 }.mc.settleCount + 1) < settling.mc.sys.settleRounds ∧
    (endRound settling).faults.records.map (·.key) = [.lineHigh 5, .earthLeak 5] ∧
    (Reading.line 1800 1100 false).fits (.line 0) = true ∧ (⟨[.line 0], 1, 0⟩ : Round).slots ≠ [] ∧
    settling.chan.inFlight = some ⟨.line 0, .scan, some 1, none, some 0, false, 40⟩ ∧
    (after (.measurementCompletion (.line 1800 1100 false)) settling).mc.mode = .active := by decide +kernel

theorem test_witness_round_skipped :
    let s := { waiting with chan.rotation := .learn, chan.round := some ⟨[.line 4, .line 7], 1, 0⟩ }
    s.chan.inFlight = none ∧ s.runs = true ∧ (∀ y ∈ s.chan.verify, s.grantsVerify y = false) ∧
      (∀ y ∈ [Target.line 4, .line 7].drop 1, s.slotKept y = false) ∧ (arrival s).chan.roundNumber = 1 := by decide +kernel

/-- The EARTH slot of line 5, and the AMP slot of amplifier 1, in flight. -/
def earth5 : State := { active with chan.inFlight := some ⟨.earth 5, .scan, some 1, none, some 0, false, 60⟩ }
def pilot1 : State := { active with chan.inFlight := some ⟨.amp 1, .scan, none, some 1, some 0, false, 20⟩ }

theorem test_witness_line_faults :
    cut5.moveOutlasts 5 = true ∧ cut5.mc.mode ≠ .settling ∧
    (let s := with5 cut5 fun l => { l with cfg.shift := 0, candidate := some .high, count := 2, masked := 20 }
     (debounce (s.line 5).confirmed (s.line 5).candidate (s.line 5).count (requiredCount (s.line 5).cfg)
       (instantClass (s.line 5).cfg .normal 1645 (deviationOf (some 833) (some 1645)))).changed = true ∧
     (after (.measurementCompletion (.line 1800 560 false)) s).faults.records.map (fun r => (r.key, r.snapshot)) =
       [(.lineHigh 5, some (.impedance (some 1645) (some 974)))] ∧
     (after (.measurementCompletion (.line 1800 560 true)) s).faults.records.map (·.key) = [.blind 5]) ∧
    probe5.moveOutlasts 5 = true ∧
    (after (.measurementCompletion (.line 60 2600 false)) probe5).faults.records.map (·.key) = [.lineShort 5] := by
  decide +kernel

theorem test_witness_earth_faults :
    let s := with5 earth5 fun l => { l with earthCandidate := some .leak, earthCount := 2 }
    s.moveOutlasts 5 = true ∧ s.chan.inFlight = some ⟨.earth 5, .scan, some 1, none, some 0, false, 60⟩ ∧
      (debounce (s.line 5).earth (s.line 5).earthCandidate (s.line 5).earthCount (requiredEarth (s.line 5).cfg)
        .leak).changed = true ∧
      (after (.measurementCompletion (.earth 655 false)) s).faults.records.map (fun r => (r.key, r.snapshot)) =
        [(.earthLeak 5, some (.earth 655 305))] ∧
      (let u := with5 earth5 fun l => { l with earth := .leak, earthCandidate := some .normal, earthCount := 2 }
       ((after (.measurementCompletion (.earth 420 false)) u).line 5).earth = .normal) := by decide +kernel

theorem test_witness_line_readings :
    cut5.chan.inFlight = some ⟨.line 5, .scan, some 1, none, some 0, false, 40⟩ ∧ cut5.mc.resetInForce = none ∧
    (cut5.line 5).epoch = 1 ∧ (cut5.line 5).state = .connected ∧
    (with5 cut5 fun l => { l with epoch := 2 }).chan.inFlight = cut5.chan.inFlight ∧
    ((with5 cut5 fun l => { l with epoch := 2 }).line 5).epoch = 2 := by decide +kernel

theorem test_witness_probe_readings :
    probe5.chan.inFlight = some ⟨.line 5, .verify, some 1, none, none, false, 40⟩ ∧ probe5.mc.resetInForce = none ∧
    (probe5.line 5).epoch = 1 ∧ (probe5.line 5).state = .probing ∧ rawImpedance 60 2600 512 = 11 ∧
    11 ≤ (probe5.line 5).cfg.shortFloor ∧ rawImpedance 1800 1100 512 = 837 ∧
    (probe5.line 5).cfg.clearCount ≤ (probe5.line 5).passCount + 1 ∧
    (probe5.line 5).waiting = some (askA .restore) ∧ (askA .restore).session = (probe5.port .a).session ∧
    0 < (probe5.port .a).inFlight ∧ probe5.mc.mode = .active ∧ probe5.moveOutlasts 5 = true ∧ probe5.learnsOn 5 = false ∧
    ((with5 probe5 fun l => { l with passCount := 0 }).line 5).passCount + 1 < (probe5.line 5).cfg.clearCount := by
  decide +kernel

theorem test_witness_learn_samples :
    learning.chan.inFlight = some ⟨.line 12, .learn, some 1, none, none, false, 40⟩ ∧
    learning.mc.resetInForce = none ∧ (learning.line 12).epoch = 1 ∧ learning.learnsOn 12 = true ∧
    (learning.line 12).learn.getD ⟨0, 0⟩ = ⟨7, 5830⟩ ∧ rawImpedance 1800 1106 512 = 833 ∧
    (learning.line 12).cfg.shortFloor < (5830 + 833 + 4) / 8 ∧ learning.mc.mode = .active ∧
    learning.move ≠ some [] := by decide +kernel

theorem test_witness_earth_and_amp_readings : (earth5.line 5).epoch = 1 ∧ (earth5.line 5).state ≠ .disabled ∧
    (earth5.line 5).cfg.earthCheck = true ∧ earth5.mc.resetInForce = none ∧ (pilot1.amp 1).stamp = 1 ∧
    (pilot1.amp 1).state ≠ .disabled ∧ pilot1.mc.resetInForce = none ∧
    ((after (.measurementCompletion (.earth 900 false)) earth5).line 5).earthCandidate = some .leak ∧
    ((after (.measurementCompletion (.amp 1000 false false)) pilot1).amp 1).state = .suspect := by decide +kernel

theorem test_witness_verify_cover :
    covering.chan.inFlight = some ⟨.amp 4, .verify, none, some 1, none, false, 20⟩ ∧ (covering.amp 4).stamp = 1 ∧
    covering.co.op = some ⟨.cover, 1, 4, .manual, some (askA .cover), 0, none, .verifying⟩ ∧
    covering.co.queue = [] ∧ covering.move ≠ some [] ∧ covering.mc.mode = .active ∧
    (covering.amp 4).cfg.amin ≤ (1024 : Code).val ∧ (1023 : Code).val < (covering.amp 4).cfg.amin ∧
    (askA .cover).session = (covering.port .a).session ∧ 0 < (covering.port .a).inFlight ∧
    (∃ n, (covering.line n).current = 4 ∧ (covering.line n).state = .connected ∧ (covering.line n).selector ≠ .bus 1) ∧
    ((after (.measurementCompletion (.amp 1024 false false)) covering).amp 1).state = .relieved ∧
    ((after (.measurementCompletion (.amp 1023 false false)) covering).amp 4).state = .faulty := by decide +kernel

theorem test_witness_verify_return :
    returning.chan.inFlight = some ⟨.amp 1, .verify, none, some 1, none, false, 20⟩ ∧ (returning.amp 1).stamp = 1 ∧
    returning.co.op = some ⟨.returnLines, 1, 4, .manual, some (askA .returnLines), 0, some 0, .verifying⟩ ∧
    returning.co.queue = [] ∧ returning.move ≠ some [] ∧ returning.mc.mode = .active ∧
    (returning.amp 1).condition = .normal ∧ (returning.amp 4).state = .busy ∧
    (returning.amp 4).coveredAmp = some 1 ∧ 0 < (returning.port .a).inFlight ∧
    ((after (.measurementCompletion (.amp 1024 false false)) returning).amp 1).state = .healthy := by decide +kernel

/-- R98: a return whose standby is the duty amplifier itself, as its verify passes and fails; R93: a masked verify. -/
theorem test_witness_verify_own_bus_and_masked :
    let own := { returning with co.op := some ⟨.returnLines, 1, 1, .manual, some (askA .returnLines), 0, some 0, .verifying⟩ }
    let masked := after (.measurementCompletion (.amp 1024 true false)) own
    (own.amp 1).state ≠ .busy ∧ own.co.queue = [] ∧ own.move ≠ some [] ∧ own.mc.mode = .active ∧
      ((after (.measurementCompletion (.amp 1024 false false)) own).amp 1).state = .healthy ∧
      ((after (.measurementCompletion (.amp 1023 false false)) own).amp 1).state = .failed ∧
      (∀ y ∈ own.chan.verify, own.grantsVerify y = false) ∧ masked.co = own.co ∧
      masked.chan.inFlight = some (own.granted (.amp 1) .verify none) := by decide +kernel

/-- Line 5, alone, is being moved to standby 4. -/
def moving5 : State :=
  let s := with5 covering fun l => { l with relayLeft := some 3 }
  { s with
    move := some [5], chan.inFlight := active.chan.inFlight
    co.op := some ⟨.cover, 1, 4, .manual, some (askA .cover), 0, none, .moving⟩ }

theorem test_witness_expiries : active.mc.resetInForce = none ∧ (active.line 5).relayLeft = none ∧
    (moving5.line 5).relayLeft.isSome ∧ moving5.chan.inFlight.isSome ∧ moving5.move = some [5] ∧
    moving5.co.op = some ⟨.cover, 1, 4, .manual, some (askA .cover), 0, none, .moving⟩ ∧
    (after (.isolate .a 0 [5]) active).moveOutlasts 5 = true ∧
    (active.line 5).timer.freeze = (active.line 5).timer ∧ (prot5.line 5).timer.freeze ≠ (prot5.line 5).timer ∧
    prot5.emergency = false ∧ { prot5 with mc.flagA := true }.emergency = true ∧ prot5.chan.inFlight.isSome ∧
    prot5.moveOutlasts 5 = true ∧ prot5.learnsOn 5 = false ∧
    active.chan.round.any (fun r => r.slots = []) = false ∧
    ((some ⟨[], 0, 1⟩ : Option Round).any fun r => r.slots = []) = true := by decide +kernel

theorem test_witness_round_trip : active.configOk = true ∧ State.reset.mc.mode = .loading ∧
    State.reset.canAnswer 0 (buildRecord 0 active) = true ∧
    (after (.recordRead (buildRecord 0 active)) State.reset).recordStatus 0 = ⟨.valid, .noCause⟩ := by decide +kernel

theorem test_witness_changed_byte : (buildRecord 22 active).length = (subjectOf 22).recordLen ∧
    judgeRecord 22 (buildRecord 22 active) = .noCause ∧ (buildRecord 22 active)[6]? ≠ some 0 ∧
    judgeRecord 22 ((buildRecord 22 active).set 6 0) = .badCrc := by decide +kernel

theorem test_witness_invariants : active.tableOk = true ∧ active.portsOk = true ∧ active.recordsOk = true ∧
    active.selectorsOk = true ∧ active.configOk = true ∧ active.queuesOk = true ∧ active.modeOk = true ∧
    active.changeoverOk = true ∧ active.storeOk = true := by decide +kernel

theorem test_witness_a_step_of_each_kind : (∃ t, step active = .next t) ∧
    (∃ t, step { active with pending := [.disableAmp .a 1 (ampPayload 4)] } = .next t) ∧
    ∃ t, step { active with pending := [.supplyFalls] } = .next t := ⟨⟨_, rfl⟩, ⟨_, rfl⟩, ⟨_, rfl⟩⟩

/-! ### Witnesses for what readings place, start and hand on -/

/-- Line 5 one reading short of a confirmed class, with Zf following each reading at once. -/
def near5 (c : LineClass) : State := with5 cut5 fun l => { l with cfg.shift := 0, candidate := some c, count := 2 }

/-- R49, R37: a train that goes on, one that is masked and a stale result's are in the confirm queue; R8, R9: a confirmed SHORT
withdraws the line and starts its timer, frozen in STOPPING, and not with auto retry off. -/
theorem test_witness_readings_place_and_start :
    let short := fun s => after (.measurementCompletion (.line 60 2600 false)) s
    (near5 .high).runs = true ∧ ((near5 .high).line 5).count = 2 ∧ (cut5.line 5).count = 0 ∧ .line 5 ∉ cut5.chan.confirm ∧
    (after (.measurementCompletion (.line 1800 560 true)) (near5 .high)).confirmFollows (.line 5) = true ∧
    (after (.measurementCompletion (.line 1800 560 false)) cut5).confirmFollows (.line 5) = true ∧
    (after (.measurementCompletion (.line 1800 1100 false)) cut5).confirmFollows (.line 5) = false ∧
    (after (.measurementCompletion (.line 1800 560 false)) (with5 (near5 .high) fun l => { l with epoch := 2 })).confirmFollows
      (.line 5) = true ∧
    ((short (near5 .short)).line 5).cause = .protective ∧ ((short (near5 .short)).line 5).timer = .running 30000 ∧
    (short (near5 .short)).confirmFollows (.line 5) = false ∧
    ((short { near5 .short with mc.mode := .stopping }).line 5).timer = .frozen 30000 ∧
    ((short (with5 (near5 .short) fun l => { l with cfg.autoRetry := false })).line 5).timer = .idle := by decide +kernel

/-- R12, R37: a masked, a passing and a stale probe reading place the line again; R14, R16: a failing one starts the timer,
leaves it idle at the lockout, and ends the waiting RESTORE with RESTORE_FAILED. -/
theorem test_witness_probe_ends :
    let short := fun s => after (.measurementCompletion (.line 60 2600 false)) s
    let passing := with5 probe5 fun l => { l with passCount := 0 }
    let stale := with5 probe5 fun l => { l with epoch := 2 }
    (after (.measurementCompletion (.line 1800 1100 true)) probe5).verifyFollows (.line 5) = true ∧
    (after (.measurementCompletion (.line 1800 1100 false)) passing).verifyFollows (.line 5) = true ∧
    probe5.chan.inFlight.bind (·.epochCopy) ≠ some (stale.line 5).epoch ∧ (short stale).verifyFollows (.line 5) = true ∧
    ((short probe5).line 5).timer = .running 30000 ∧
    ((short (with5 probe5 fun l => { l with retryCount := 2 })).line 5).state = .locked ∧
    ((short (with5 probe5 fun l => { l with retryCount := 2 })).line 5).timer = .idle ∧
    ((short probe5).port .a).completions = [⟨0x2C, .restore, .restoreFailed⟩] ∧
    ((after (.measurementCompletion (.line 1800 1100 false)) probe5).port .a).completions = [⟨0x2C, .restore, .restored⟩] := by
  decide +kernel

/-- R58: each end of the job hands its completion on; R57: LEARN_DONE clears UNCALIBRATED; R56: a sample before the eighth. -/
theorem test_witness_learn_ends :
    let ends := fun r s => ((after (.measurementCompletion r) s).port .a).completions.map (·.outcome)
    let uncalibrated := raise (.uncalibrated 12) none learning
    let few := learning.setLine 12 { learning.line 12 with learn := some ⟨2, 1666⟩ }
    let small := learning.setLine 12 { learning.line 12 with learn := some ⟨7, 70⟩ }
    learning.chan.job.map (·.requester) = some { askA .learn with tag := 0x51 } ∧
    ends (.line 1800 1106 true) learning = [.learnDisturbed] ∧ ends (.line 1800 5 false) learning = [.learnOpen] ∧
    ends (.line 60 2600 false) small = [.learnShort] ∧ ends (.line 1800 1106 false) learning = [.learnDone] ∧
    ends (.line 1800 1106 false) few = [] ∧
    (after (.measurementCompletion (.line 1800 1106 false)) uncalibrated).faults.records.map (·.lifecycle) = [.clearedUnack] ∧
    (after (.measurementCompletion (.line 1800 1106 true)) uncalibrated).faults.records.map (·.lifecycle) = [.activeUnack] := by
  decide +kernel

/-- R75, R37: amplifier 1 with a train, masked and stale; a stale verify of an operation. -/
theorem test_witness_amp_readings_place :
    let train := pilot1.setAmp 1 { pilot1.amp 1 with candidate := some .fail, count := 1 }
    let stale := train.setAmp 1 { train.amp 1 with stamp := 2 }
    let lost := covering.setAmp 4 { covering.amp 4 with stamp := 2 }
    pilot1.runs = true ∧
    (after (.measurementCompletion (.amp 1000 false false)) pilot1).confirmFollows (.amp 1) = true ∧
    (after (.measurementCompletion (.amp 1000 true false)) train).confirmFollows (.amp 1) = true ∧
    (after (.measurementCompletion (.amp 1000 false false)) stale).confirmFollows (.amp 1) = true ∧
    (after (.measurementCompletion (.amp 1024 false false)) train).confirmFollows (.amp 1) = false ∧
    lost.awaitsVerify 4 = true ∧ lost.chan.inFlight.bind (·.stampCopy) ≠ some (lost.amp 4).stamp ∧
    (after (.measurementCompletion (.amp 1023 false false)) lost).verifyFollows (.amp 4) = true ∧
    (after (.measurementCompletion (.amp 1023 false false)) lost).amps = lost.amps := by decide +kernel

/-- An alarm of class 5 is NEW for Port A, which has not been signalled. -/
def lowWaits (s : State) : State :=
  let s := s.setPort .a { s.port .a with listening := true }
  { s with faults.records := [⟨.lineLow 5, .activeUnack, 1, 0, 1, none, none, ⟨true, false, false⟩⟩] }

/-- R20, R58: STOP ends the probe and the learn job with their completions and freezes the timers; R140: it sets the latch of
the port that has an eligible class, as the arrival that ends STOPPING does. -/
theorem test_witness_stop_ends :
    let stop := fun s => after (.stop .a 0 []) s
    let stopping := { lowWaits { prot5 with chan.inFlight := none } with mc.mode := .stopping, chan.round := none }
    probe5.move = none ∧ ((stop probe5).port .a).completions = [⟨0x2C, .restore, .restoreAborted⟩] ∧
    ((stop probe5).line 5).timer = .frozen 30000 ∧ ((stop probe5).line 5).selector = .off ∧
    ((stop learning).port .a).completions = [⟨0x51, .learn, .learnAborted⟩] ∧
    ((stop prot5).line 5).timer = .frozen 30000 ∧ (lowWaits active).anyEligible .a = true ∧
    ((lowWaits active).port .a).latch = false ∧ ((stop (lowWaits active)).port .a).latch = true ∧
    stopping.co.op = none ∧ stopping.chan.verify = [] ∧ (arrival stopping).mc.mode = .standby ∧
    ((arrival stopping).port .a).latch = true ∧ ((arrival stopping).line 5).timer = .frozen 30000 := by decide +kernel

/-- R2, R66: a reference made absent, one made present, and the earth check turned off. -/
theorem test_witness_configure_line_faults :
    let sent := fun b s => (after (.configureLine .a 0 b) s).faults.records.map fun r => (r.key, r.lifecycle)
    let leaking := raise (.earthLeak 5) none (with5 off5 fun l => { l with earth := .leak, lastLc := some 655 })
    let bare := raise (.uncalibrated 5) none (with5 off5 fun l => { l with cfg.zref := none })
    sent ((fields5.set 4 0).set 5 0) off5 = [(.uncalibrated 5, .activeUnack)] ∧
    sent fields5 bare = [(.uncalibrated 5, .clearedUnack)] ∧ sent fields5 leaking = [(.earthLeak 5, .activeUnack)] ∧
    sent (fields5.set 16 0) leaking = [(.earthLeak 5, .clearedUnack)] ∧
    sent ((fields5.set 4 0).set 5 0) gone5 = [] := by decide +kernel

/-- R84, R4: amplifier 1 is covered with its lines out, and line 6, whose home is the standby, is CONNECTED on it; line 4 gets no
order. -/
theorem test_disable_amp_orders_a_connected_line :
    let s := idleCovered.setLine 6 { onBus 6 with cfg.home := 4, current := 4, selector := .bus 4 }
    let s := s.setLine 4 { s.line 4 with current := 4 }
    let t := after (.disableAmp .a 0 (ampPayload 1)) s
    s.takes .disableAmp .a (ampPayload 1) ∧ (t.line 6).current = 1 ∧ (t.line 6).selector = .bus 1 ∧
      (t.line 6).relayLeft = some 12 ∧ (t.line 6).epoch = 2 ∧ (t.line 4).current = 1 ∧ (t.line 4).selector = .off ∧
      (t.line 4).relayLeft = none ∧ (t.amp 4).state = .free := by decide +kernel

end Sys2Proof.Tests
end

section
/-! PROOFS. What the changeover unit, the amplifier supervisor, the channel and mode control do, once for every relation
between two states that their primitive updates keep: each invariant and each frame of a later proof is one such relation. -/

namespace Sys2Proof.Machine

/-- An amplifier record after a change that the changeover unit makes: one that is not DISABLED stays so. -/
def AmpMoved (x y : Amp) : Prop := x.keptIn y ∧ (y.state = .disabled → x.state = .disabled)

/-- The debounce step of an amplifier on a reading (R74, R76). -/
def Amp.stepCondition (x : Amp) (ac : Code) (prot : Bool) : Debounce Condition :=
  debounce x.condition x.candidate x.count (requiredCondition x.cfg)
    (if normalReading x.cfg.amin ac prot then .normal else .fail)

/-- The record of an amplifier after a reading, before what a confirmed condition does (R75, R76). -/
def Amp.judged (x : Amp) (ac : Code) (prot : Bool) : Amp :=
  let d := x.stepCondition ac prot
  { x with
    lastAc := some ac, lastProt := some prot, condition := d.confirmed, candidate := d.candidate, count := d.count }

/-- What a debounce step of an amplifier does: a confirmed condition, or a step of SUSPECT (R77 to R81). -/
def ampStepped (arr : Arrive) (k : AmpNo) (d : Debounce Condition) (snap : Option Snapshot) (s : State) : State :=
  if d.changed then
    match d.confirmed with
    | .fail => confirmFail arr k snap s
    | .normal => confirmNormal arr k snap s
  else stepSuspect k s

/-- The cases of an AMP reading (R75). -/
theorem ampReading_cases (arr : Arrive) (k : AmpNo) (ac : Code) (ov prot : Bool) (s : State) :
    ampReading arr k ac ov prot s =
      if (s.amp k).state = .disabled then s
      else placeAmpIfCounting k
        (if ov then s
          else ampStepped arr k ((s.amp k).stepCondition ac prot) (some (.amp ac prot))
            (s.setAmp k ((s.amp k).judged ac prot))) := by
  by_cases hd : (s.amp k).state = .disabled
  · simp only [ampReading, hd, ↓reduceIte]
  · cases ov with
    | true => simp only [ampReading, hd, ↓reduceIte]
    | false =>
      simp only [ampReading, hd, ↓reduceIte, Bool.false_eq_true]
      rfl

/-- A relation that the primitive updates of the blocks keep. -/
structure Closed (R : State → State → Prop) : Prop where
  refl : ∀ s, R s s
  trans : ∀ {s t u}, R s t → R t u → R s u
  table : ∀ {s t}, SameButTable s t → R s t
  verify : ∀ s v, (∀ n, .line n ∈ v ↔ .line n ∈ s.chan.verify) → R s { s with chan.verify := v }
  withdraw : ∀ s k, R s (withdrawConfirm (.amp k) s)
  place : ∀ s k, R s (placeConfirm (.amp k) s)
  co : ∀ s c, R s { s with co := c }
  move : ∀ s m, R s { s with move := m }
  amp : ∀ s k x, AmpMoved (s.amp k) x → R s (s.setAmp k x)
  verifyFails : ∀ s k ac prot, R s (s.setAmp k
    { s.amp k with condition := .fail, candidate := none, count := 0, lastAc := some ac, lastProt := some prot })
  moveLine : ∀ s y n, R s (moveLine y s n)
  settles : ∀ s c, s.mc.mode = .settling → R s { s with mc.settleCount := c }
  active : ∀ s, s.mc.mode = .settling → R s { s with mc.mode := .active }
  freeze : ∀ s, s.mc.mode = .stopping → s.chan.inFlight.isNone → s.co.op.isNone →
    R s ({ s with mc.mode := .standby }.mapLines fun l => { l with timer := l.timer.freeze })

/-- A relation that the search of the channel keeps: what it needs of the blocks it calls at the end of a round and of
stopping. -/
structure SearchClosed (R : State → State → Prop) : Prop where
  refl : ∀ s, R s s
  trans : ∀ {s t u}, R s t → R t u → R s u
  chan : ∀ s c, R s { s with chan := c }
  signal : ∀ s, R s (signalAll s)
  settles : ∀ s c, s.mc.mode = .settling → R s { s with mc.settleCount := c }
  active : ∀ s, s.mc.mode = .settling → R s (enterActive s)
  standby : ∀ s, s.mc.mode = .stopping → s.chan.inFlight.isNone → s.co.op.isNone → R s (enterStandby s)

section Search
variable {R : State → State → Prop} (hR : SearchClosed R) (s : State)
include hR

theorem SearchClosed.checkStopped : R s (checkStopped s) := by
  unfold Machine.checkStopped; split
  · next h => exact hR.standby s h.1 h.2.1 h.2.2
  · exact hR.refl s

theorem SearchClosed.countRound : R s (countRound s) := by
  unfold Machine.countRound; split
  · next h =>
    dsimp only; split
    · exact hR.trans (hR.settles s _ h) (hR.active _ h)
    · exact hR.settles s _ h
  · exact hR.refl s

theorem SearchClosed.endRound : R s (endRound s) := by
  have started : ∀ t : State, R t (if t.runs then startRound t else t) := by
    intro t; split
    · exact hR.chan t _
    · exact hR.refl t
  unfold Machine.endRound; dsimp only
  refine hR.trans ?_ (started _)
  refine hR.trans ?_ (hR.signal _)
  exact hR.trans (hR.chan s _) (hR.countRound _)

theorem SearchClosed.takeSlot (r : Round) (pos : Nat) (t : Target) : R s (takeSlot r pos t s) := by
  unfold Machine.takeSlot; split
  · exact hR.chan s _
  · exact hR.trans (hR.chan s _) (hR.chan _ _)

theorem SearchClosed.tryVerify : R s (tryVerify s) := by
  unfold Machine.tryVerify; dsimp only; split
  · exact hR.trans (hR.chan s _) (hR.chan _ _)
  · exact hR.chan s _

theorem SearchClosed.tryFirstSlot : R s (tryFirstSlot s) := by
  unfold Machine.tryFirstSlot; split
  · exact hR.refl s
  · split
    · exact hR.takeSlot s _ _ _
    · exact hR.refl s

theorem SearchClosed.tryScan : R s (tryScan s) := by
  unfold Machine.tryScan; split
  · exact hR.refl s
  · split
    · exact hR.refl s
    · split
      · exact hR.takeSlot s _ _ _
      · exact hR.trans (hR.endRound s) (hR.tryFirstSlot _)

theorem SearchClosed.tryConfirm : R s (tryConfirm s) := by
  unfold Machine.tryConfirm; dsimp only; split
  · exact hR.trans (hR.trans (hR.chan s _) (hR.chan _ _)) (hR.chan _ _)
  · exact hR.chan s _

theorem SearchClosed.tryLearn : R s (tryLearn s) := by
  unfold Machine.tryLearn; split
  · exact hR.refl s
  · split
    · exact hR.trans (hR.chan s _) (hR.chan _ _)
    · exact hR.refl s

theorem SearchClosed.tryClass (c : RotClass) : R s (tryClass c s) := by
  cases c with
  | confirm => exact hR.tryConfirm s
  | learn => exact hR.tryLearn s
  | scan => exact hR.tryScan s

theorem SearchClosed.firstGrant (l : List (State → State)) (h : ∀ f ∈ l, ∀ s, R s (f s)) : R s (firstGrant l s) := by
  induction l generalizing s with
  | nil => exact hR.refl s
  | cons f fs ih =>
    unfold Machine.firstGrant; dsimp only
    split
    · exact h f (by simp) s
    · exact hR.trans (h f (by simp) s) (ih _ fun g hg => h g (by simp [hg]))

theorem SearchClosed.searchOnce : R s (searchOnce s) := by
  refine hR.firstGrant s _ fun f hf => ?_
  rcases List.mem_cons.mp hf with rfl | hf
  · exact hR.tryVerify
  · obtain ⟨c, -, rfl⟩ := List.mem_map.mp hf
    exact fun s => hR.tryClass s c

theorem SearchClosed.searchRunning : R s (searchRunning s) := by
  unfold Machine.searchRunning; dsimp only; split
  · exact hR.trans (hR.searchOnce s) (hR.searchOnce _)
  · exact hR.searchOnce s

theorem SearchClosed.channelFree : R s (channelFree s) := by
  unfold Machine.channelFree; dsimp only
  refine hR.trans (hR.chan s { s.chan with inFlight := none }) ?_
  split
  · exact hR.searchRunning _
  · exact hR.searchRunning _
  · split
    · exact hR.trans (hR.tryVerify _) (hR.checkStopped _)
    · exact hR.tryVerify _
  · exact hR.refl _
  · exact hR.refl _

theorem SearchClosed.arrival : R s (arrival s) := by
  unfold Machine.arrival; split
  · exact hR.refl s
  · exact hR.channelFree s

end Search

section Blocks
variable {R : State → State → Prop} (hR : Closed R) (s : State)
include hR

theorem Closed.moveLines (x y : AmpNo) : R s (moveLines x y s) := by
  have fold : ∀ (l : List LineNo) (s : State), R s (l.foldl (Machine.moveLine y) s) := by
    intro l
    induction l with
    | nil => exact hR.refl
    | cons n l ih => exact fun s => hR.trans (hR.moveLine s y n) (ih _)
  exact hR.trans (fold _ s) (hR.move _ _)

theorem Closed.foldTable {α : Type} (f : State → α → State) (h : ∀ s a, SameButTable s (f s a)) (l : List α) :
    R s (l.foldl f s) := hR.table (foldl_sameButTable f h l s)

theorem Closed.setAmpState (k : AmpNo) {st : AmpState} (h : st ≠ .disabled) : R s (setAmpState k st s) := by
  unfold Machine.setAmpState; dsimp only; split
  · exact hR.refl s
  · exact hR.amp s k _ ⟨rfl, fun e => absurd e h⟩

theorem Closed.dropCovered (k : AmpNo) : R s (dropCovered k s) := hR.amp s k _ ⟨rfl, id⟩

theorem Closed.dropCover (k : AmpNo) : R s (dropCover k s) := hR.amp s k _ ⟨rfl, id⟩

theorem Closed.setCarrying (d y : AmpNo) : R s (setCarrying d y s) := hR.amp s d _ ⟨rfl, id⟩

theorem Closed.freeStandby (x d : AmpNo) : R s (freeStandby x d s) := by
  unfold Machine.freeStandby; split
  · exact hR.trans (hR.setAmpState s x (by decide)) (hR.dropCovered _ x)
  · exact hR.refl s

theorem Closed.withdrawVerify (k : AmpNo) : R s (withdrawVerify (.amp k) s) :=
  hR.verify s _ fun n => by simp

theorem Closed.recordVerifyFail (k : AmpNo) (ac : Code) (prot : Bool) : R s (recordVerifyFail k ac prot s) :=
  hR.trans (hR.trans (hR.verifyFails s k ac prot) (hR.withdraw _ k)) (hR.table (raise_same _ _ _))

theorem Closed.enterStandby (h : s.mc.mode = .stopping) (hf : s.chan.inFlight.isNone) (ho : s.co.op.isNone) :
    R s (enterStandby s) :=
  hR.trans (hR.freeze s h hf ho) (hR.table (signalAll_same _).table)

theorem Closed.checkStopped : R s (checkStopped s) := by
  unfold Machine.checkStopped; split
  · next h => exact hR.enterStandby s h.1 h.2.1 h.2.2
  · exact hR.refl s

theorem Closed.raiseNoCover (d : AmpNo) : R s (raiseNoCover d s) := hR.table (raiseNoCover_same s d)

theorem Closed.rejoinAutoCover (d : AmpNo) (q : Word) (r : Option Requester) : R s (rejoinAutoCover d q r s) :=
  hR.trans (hR.co s _) (hR.raiseNoCover _ d)

theorem Closed.rejoinFailedCover (o : Operation) : R s (rejoinFailedCover o s) := by
  unfold Machine.rejoinFailedCover; dsimp only
  split
  · exact hR.rejoinAutoCover s _ _ _
  · exact hR.trans (hR.trans (hR.co s _) (hR.setAmpState _ _ (by decide))) (hR.table (clear_same _ _ _))
  · exact hR.trans (hR.setAmpState s _ (by decide)) (hR.table (clear_same _ _ _))
  · exact hR.co s _
  · exact hR.co s _
  · exact hR.refl s

theorem Closed.replaceEntry (e : CoEntry) : R s (replaceEntry e s) := hR.trans (hR.co s _) (hR.co _ _)

theorem Closed.seqOr (q : Option Word) : R s (seqOr q s).2 := by
  cases q with
  | none => exact hR.co s _
  | some w => exact hR.refl s

theorem Closed.placeAmpIfCounting (k : AmpNo) : R s (placeAmpIfCounting k s) := by
  unfold Machine.placeAmpIfCounting; split
  · exact hR.place s k
  · exact hR.refl s

theorem Closed.stepSuspect (k : AmpNo) : R s (stepSuspect k s) := by
  unfold Machine.stepSuspect; dsimp only
  split
  · exact hR.setAmpState s k (by decide)
  · split
    · exact hR.setAmpState s k (by decide)
    · exact hR.refl s

section Arrive
variable {arr : Arrive} (ha : ∀ s, R s (arr s))
include ha

theorem Closed.placeVerify (k : AmpNo) : R s (placeVerify arr (.amp k) s) := by
  unfold Machine.placeVerify; split
  · exact hR.refl s
  · exact hR.trans (hR.verify s _ fun n => by simp) (ha _)

theorem Closed.beginVerify (o : Operation) : R s (beginVerify arr o s) :=
  hR.trans (hR.co s _) (hR.placeVerify _ ha _)

theorem Closed.afterGrantMove (o : Operation) : R s (afterGrantMove arr o s) := by
  unfold Machine.afterGrantMove; split
  · exact hR.trans (hR.move s _) (hR.beginVerify _ ha o)
  · exact hR.refl s

theorem Closed.grantCover (e : CoEntry) (x : AmpNo) : R s (grantCover arr e x s) := by
  unfold Machine.grantCover; dsimp only
  refine hR.trans ?_ (hR.afterGrantMove _ ha _)
  refine hR.trans ?_ (hR.setCarrying _ _ _)
  refine hR.trans ?_ (hR.moveLines _ _ _)
  refine hR.trans ?_ (hR.table (clear_same _ _ _))
  refine hR.trans ?_ (hR.amp _ _ _ ⟨rfl, id⟩)
  exact hR.trans (hR.co s _) (hR.setAmpState _ _ (by decide))

theorem Closed.grantReturn (e : CoEntry) : R s (grantReturn arr e s) := by
  unfold Machine.grantReturn; dsimp only
  refine hR.trans ?_ (hR.afterGrantMove _ ha _)
  refine hR.trans ?_ (hR.setCarrying _ _ _)
  exact hR.trans (hR.co s _) (hR.moveLines _ _ _)

theorem Closed.grantAttempt : R s (grantAttempt arr s) := by
  unfold Machine.grantAttempt; split
  · exact hR.refl s
  · split
    · unfold grantEntry; split
      · split
        · exact hR.grantCover s ha _ _
        · exact hR.refl s
      · exact hR.grantReturn s ha _
    · exact hR.refl s

theorem Closed.endOperation (o : Option CompletionOutcome) {rejoin : State → State} (hr : ∀ s, R s (rejoin s)) :
    R s (endOperation arr o rejoin s) := by
  have ended : ∀ t : State, R t (if t.mc.mode = .stopping then Machine.checkStopped t else Machine.grantAttempt arr t) := by
    intro t; split
    · exact hR.checkStopped t
    · exact hR.grantAttempt t ha
  unfold Machine.endOperation; dsimp only
  refine hR.trans ?_ (ended _)
  refine hR.trans ?_ (hr _)
  refine hR.trans ?_ (hR.co _ _)
  split
  · exact hR.table (completeIfAny_same s _ _).table
  · exact hR.refl s

theorem Closed.moveDone : R s (moveDone arr s) := by
  unfold Machine.moveDone; split
  · exact hR.refl s
  · split
    · exact hR.beginVerify s ha _
    · exact hR.refl s
    · exact hR.endOperation s ha _ fun s => hR.rejoinFailedCover s _
    · refine hR.endOperation s ha _ fun t => ?_
      split
      · exact hR.rejoinAutoCover t _ _ _
      · exact hR.refl t

theorem Closed.reportMove : R s (reportMove arr s) := by
  unfold Machine.reportMove; split
  · exact hR.trans (hR.move s _) (hR.moveDone _ ha)
  · exact hR.refl s

theorem Closed.moveBack (d x y : AmpNo) : R s (moveBack arr d x y s) := by
  unfold Machine.moveBack
  refine hR.trans ?_ (hR.reportMove _ ha)
  exact hR.trans (hR.trans (hR.moveLines s x y) (hR.setCarrying _ _ _)) (hR.co _ _)

theorem Closed.coverPass (o : Operation) : R s (coverPass arr o s) := by
  unfold Machine.coverPass; dsimp only
  refine hR.trans ?_ (hR.endOperation _ ha _ hR.refl)
  refine hR.trans ?_ (hR.amp _ _ _ ⟨rfl, id⟩)
  split
  · exact hR.setAmpState s _ (by decide)
  · exact hR.setAmpState s _ (by decide)
  · exact hR.setAmpState s _ (by decide)
  · exact hR.refl s

theorem Closed.coverFail (o : Operation) (ac : Code) (prot : Bool) : R s (coverFail arr o ac prot s) := by
  unfold Machine.coverFail; dsimp only
  refine hR.trans ?_ (hR.moveBack _ ha _ _ _)
  refine hR.trans ?_ (hR.recordVerifyFail _ _ _ _)
  exact hR.trans (hR.setAmpState s _ (by decide)) (hR.dropCovered _ _)

theorem Closed.returnPass (o : Operation) : R s (returnPass arr o s) := by
  unfold Machine.returnPass; dsimp only
  refine hR.trans ?_ (hR.endOperation _ ha _ hR.refl)
  refine hR.trans ?_ (hR.freeStandby _ _ _)
  exact hR.trans (hR.setAmpState s _ (by decide)) (hR.dropCover _ _)

theorem Closed.returnFail (o : Operation) (ac : Code) (prot : Bool) : R s (returnFail arr o ac prot s) := by
  unfold Machine.returnFail; dsimp only
  refine hR.trans (hR.recordVerifyFail s o.duty ac prot) ?_
  split
  · refine hR.trans ?_ (hR.moveBack _ ha _ _ _)
    split
    · exact hR.setAmpState _ _ (by decide)
    · exact hR.refl _
  · refine hR.trans ?_ (hR.endOperation _ ha _ fun t => hR.rejoinAutoCover t _ _ _)
    exact hR.trans (hR.setAmpState _ _ (by decide)) (hR.dropCover _ _)

theorem Closed.takeVerify (k : AmpNo) (ac : Code) (ov prot : Bool) : R s (takeVerify arr k ac ov prot s) := by
  unfold Machine.takeVerify; split
  · exact hR.refl s
  · split
    · exact hR.refl s
    · split
      · exact hR.placeVerify s ha _
      · dsimp only
        split
        · split
          · exact hR.coverPass s ha _
          · exact hR.coverFail s ha _ _ _
        · split
          · exact hR.returnPass s ha _
          · exact hR.returnFail s ha _ _ _

theorem Closed.afterRequest (d : AmpNo) : R s (afterRequest arr d s) :=
  hR.trans (hR.raiseNoCover s d) (hR.grantAttempt _ ha)

theorem Closed.askAutoCover (d : AmpNo) (q : Option Word) : R s (askAutoCover arr d q s) := by
  unfold Machine.askAutoCover; split
  · exact hR.co s _
  · split
    · exact hR.trans (hR.replaceEntry s _) (hR.afterRequest _ ha d)
    · exact hR.trans (hR.trans (hR.seqOr s q) (hR.co _ _)) (hR.afterRequest _ ha d)

theorem Closed.askAutoReturn (d : AmpNo) (q : Option Word) : R s (askAutoReturn arr d q s) := by
  unfold Machine.askAutoReturn; split
  · exact hR.refl s
  · split
    · exact hR.grantAttempt s ha
    · exact hR.trans (hR.trans (hR.seqOr s q) (hR.co _ _)) (hR.afterRequest _ ha d)

theorem Closed.dutyFails (d : AmpNo) : R s (dutyFails arr d s) := by
  unfold Machine.dutyFails; split
  · exact hR.trans (hR.setAmpState s _ (by decide)) (hR.askAutoCover _ ha _ _)
  · exact hR.trans (hR.setAmpState s _ (by decide)) (hR.askAutoCover _ ha _ _)
  · exact hR.setAmpState s _ (by decide)
  · split
    · split
      · exact hR.trans (hR.replaceEntry s _) (hR.afterRequest _ ha _)
      · exact hR.refl s
    · exact hR.refl s
  · exact hR.refl s

theorem Closed.loseCover (d : AmpNo) : R s (loseCover arr d s) := by
  unfold Machine.loseCover; dsimp only
  split
  · exact hR.trans (hR.trans (hR.dropCover s d) (hR.setAmpState _ _ (by decide))) (hR.askAutoCover _ ha _ _)
  · exact hR.trans (hR.trans (hR.dropCover s d) (hR.setAmpState _ _ (by decide))) (hR.askAutoReturn _ ha _ _)
  · exact hR.dropCover s d

theorem Closed.coverLostInFlight (o : Operation) : R s (coverLostInFlight arr o s) :=
  hR.trans (hR.withdrawVerify s _) (hR.moveBack _ ha _ _ _)

theorem Closed.standbyFails (x : AmpNo) : R s (standbyFails arr x s) := by
  have faulty := hR.trans (hR.setAmpState s x (st := .faulty) (by decide)) (hR.dropCovered _ x)
  unfold Machine.standbyFails; dsimp only
  split
  · exact faulty
  · exact hR.trans faulty (hR.coverLostInFlight _ ha _)
  · exact hR.trans faulty (hR.loseCover _ ha _)

theorem Closed.confirmFail (k : AmpNo) (snap : Option Snapshot) : R s (confirmFail arr k snap s) := by
  unfold Machine.confirmFail; dsimp only
  refine hR.trans (hR.table (raise_same s (.ampFail k) snap)) ?_
  split
  · exact hR.dutyFails _ ha k
  · exact hR.standbyFails _ ha k

theorem Closed.recoverQueued (k : AmpNo) (e : CoEntry) : R s (recoverQueued arr k e s) := by
  unfold Machine.recoverQueued; dsimp only
  refine hR.trans ?_ (hR.afterRequest _ ha _)
  refine hR.trans ?_ (hR.table (clear_same _ _ _))
  split
  · split
    · exact hR.trans (hR.setAmpState s _ (by decide)) (hR.replaceEntry _ _)
    · exact hR.trans (hR.setAmpState s _ (by decide)) (hR.co _ _)
  · exact hR.replaceEntry s _

theorem Closed.confirmNormal (k : AmpNo) (snap : Option Snapshot) : R s (confirmNormal arr k snap s) := by
  unfold Machine.confirmNormal; dsimp only
  refine hR.trans (hR.table (clear_same s (.ampFail k) snap)) ?_
  split
  · exact hR.trans (hR.setAmpState _ _ (by decide)) (hR.grantAttempt _ ha)
  · split
    · exact hR.refl _
    · split
      · split
        · exact hR.recoverQueued _ ha _ _
        · exact hR.refl _
      · exact hR.refl _
  · exact hR.refl _


theorem Closed.ampStepped (k : AmpNo) (d : Debounce Condition) (snap : Option Snapshot) :
    R s (ampStepped arr k d snap s) := by
  unfold Machine.ampStepped; split
  · split
    · exact hR.confirmFail s ha k snap
    · exact hR.confirmNormal s ha k snap
  · exact hR.stepSuspect s k

end Arrive

/-- The move to ACTIVE (R151). -/
theorem Closed.enterActive (h : s.mc.mode = .settling) : R s (enterActive s) := by
  unfold Machine.enterActive; dsimp only
  refine hR.trans ?_ (hR.grantAttempt _ hR.refl)
  refine hR.trans ?_ (hR.foldTable _ _ (fun s n => heldEarth_same s n) _)
  exact hR.trans (hR.active s h) (hR.foldTable _ _ (fun s n => heldRaises_same s n) _)

theorem Closed.countRound : R s (countRound s) := by
  unfold Machine.countRound; split
  · next h =>
    dsimp only; split
    · exact hR.trans (hR.settles s _ h) (hR.enterActive _ h)
    · exact hR.settles s _ h
  · exact hR.refl s

/-- What the blocks keep, the search of the channel keeps, where it may change the channel. -/
theorem Closed.search (hc : ∀ s c, R s { s with chan := c }) : SearchClosed R where
  refl := hR.refl
  trans := hR.trans
  chan := hc
  signal _ := hR.table (signalAll_same _).table
  settles := hR.settles
  standby := hR.enterStandby
  active := hR.enterActive

end Blocks

end Sys2Proof.Machine
end

section
/-! PROOFS. The operations of the line supervisor and the earth monitor: what each makes of the record of its own line, and
that it leaves every other line as it stands but for the learn accumulator of a job that ends. -/

namespace Sys2Proof.Machine

variable (s : State) (n m : LineNo)

/-! ### Writing a record twice, or back -/

@[simp] theorem setLine_self : s.setLine n (s.line n) = s := by
  have : s.lines.set n.val (s.line n) n.isLt = s.lines := by
    apply Vector.ext
    intro i hi
    rw [Vector.getElem_set]
    split
    · next h => subst h; rfl
    · rfl
  simp only [State.setLine, this]

@[simp] theorem setLine_setLine (l l' : Line) : (s.setLine n l).setLine n l' = s.setLine n l' := by
  simp [State.setLine]

/-! ### What reads no line -/

section Reading
variable (k : FaultKey) (snap : Option Snapshot) (x : Subject) (r : Requester) (r' : Option Requester)
  (o : CompletionOutcome) (c d : LineClass)

@[simp] theorem line_raise : (raise k snap s).line n = s.line n := line_congr (raise_same s k snap).lines n
@[simp] theorem line_clear : (clear k snap s).line n = s.line n := line_congr (clear_same s k snap).lines n
@[simp] theorem line_clearClass : (clearClass m c s).line n = s.line n := line_congr (clearClass_same s m c).lines n
@[simp] theorem line_sendClassChange : (sendClassChange m c d s).line n = s.line n :=
  line_congr (sendClassChange_same s m c d).lines n
@[simp] theorem line_raiseBlind : (raiseBlind m s).line n = s.line n := line_congr (raiseBlind_same s m).lines n
@[simp] theorem line_sendEarth : (sendEarth m s).line n = s.line n := line_congr (sendEarth_same s m).lines n
@[simp] theorem line_complete : (complete r o s).line n = s.line n := line_congr (complete_same s r o).lines n
@[simp] theorem line_completeIfAny : (completeIfAny r' o s).line n = s.line n :=
  line_congr (completeIfAny_same s r' o).lines n
@[simp] theorem line_withdrawConfirm : (withdrawConfirm x s).line n = s.line n := rfl
@[simp] theorem line_withdrawVerify : (withdrawVerify x s).line n = s.line n := rfl
@[simp] theorem line_placeConfirm : (placeConfirm x s).line n = s.line n := by rw [placeConfirm_eq]; rfl
@[simp] theorem line_placeVerify_id : (placeVerify id x s).line n = s.line n := by rw [placeVerify_id]; rfl
@[simp] theorem line_placeLineIfCounting : (placeLineIfCounting m s).line n = s.line n := by
  unfold placeLineIfCounting; split <;> simp

/-- Supervision runs after the work of the line supervisor just when it ran before (R148). -/
theorem LineWork.runs {s t : State} (h : LineWork s t) : t.runs = s.runs := by simp only [State.runs, h.mc]

end Reading

/-! ### One line alone -/

/-- From `s` to `t` the line supervisor has acted on line `n` alone: any other record stands, but for the learn accumulator of
a job that has ended. -/
structure OnlyLine (n : LineNo) (s t : State) : Prop where
  work : LineWork s t
  others : ∀ m, m ≠ n → ∃ a, t.line m = { s.line m with learn := a }

variable {s n} in
theorem OnlyLine.trans {t u : State} (h : OnlyLine n s t) (g : OnlyLine n t u) : OnlyLine n s u :=
  ⟨h.work.trans g.work, fun m hm => by
    obtain ⟨a, ha⟩ := h.others m hm
    obtain ⟨b, hb⟩ := g.others m hm
    exact ⟨b, by rw [hb, ha]⟩⟩

variable {s} in
theorem OnlyLine.of_lines {t : State} (h : LineWork s t) (hl : t.lines = s.lines) : OnlyLine n s t :=
  ⟨h, fun m _ => ⟨(s.line m).learn, by rw [line_congr hl]⟩⟩

theorem OnlyLine.refl : OnlyLine n s s := .of_lines n (.refl s) rfl

variable {s} in
theorem SameButTable.onlyLine {t : State} (h : SameButTable s t) : OnlyLine n s t := .of_lines n h.lineWork h.lines

theorem setLine_onlyLine (l : Line) : OnlyLine n s (s.setLine n l) :=
  ⟨setLine_work s n l, fun m hm => ⟨(s.line m).learn, by rw [line_setLine_ne s n m l hm]⟩⟩

theorem withChan_onlyLine (c : Channel) : OnlyLine n s { s with chan := c } := .of_lines n (withChan_work s c) rfl

theorem endLearn_onlyLine (o : CompletionOutcome) : OnlyLine n s (endLearn o s) :=
  ⟨endLearn_work s o, fun m _ => by
    obtain e | e := line_endLearn s o m
    · exact ⟨(s.line m).learn, by rw [e]⟩
    · exact ⟨none, e⟩⟩

theorem abortLearnOf_onlyLine : OnlyLine n s (abortLearnOf n s) :=
  ⟨abortLearnOf_work s n, fun m _ => by
    obtain e | e := line_abortLearnOf s n m
    · exact ⟨(s.line m).learn, by rw [e]⟩
    · exact ⟨none, e⟩⟩

theorem orderSelector_onlyLine (pos : Selector) : OnlyLine n s (orderSelector n pos s) :=
  ⟨orderSelector_work s n pos, fun m hm => by
    obtain ⟨a, e⟩ := line_orderSelector s n pos m
    exact ⟨a, by rw [e]; simp [hm]⟩⟩

/-- A relation that the primitive updates of the line supervisor and the earth monitor on line `n` keep. -/
structure LineClosed (n : LineNo) (R : State → State → Prop) : Prop where
  refl : ∀ s, R s s
  trans : ∀ {s t u}, R s t → R t u → R s u
  table : ∀ {s t}, SameButTable s t → R s t
  line : ∀ s l, R s (s.setLine n l)
  queues : ∀ s v q, R s { s with chan := { s.chan with verify := v, confirm := q } }
  order : ∀ s pos, R s (orderSelector n pos s)
  ended : ∀ s o, R s (endLearn o s)

theorem onlyLine_closed : LineClosed n (OnlyLine n) where
  refl s := .refl s n
  trans := .trans
  table h := h.onlyLine n
  line s l := setLine_onlyLine s n l
  queues s _ _ := withChan_onlyLine s n _
  order s pos := orderSelector_onlyLine s n pos
  ended s o := endLearn_onlyLine s n o

section LineClosed
variable {n : LineNo} {R : State → State → Prop} (hR : LineClosed n R)
include hR

theorem LineClosed.abortLearnOf : R s (abortLearnOf n s) := by
  unfold Machine.abortLearnOf; split
  · split
    · exact hR.ended s _
    · exact hR.refl s
  · exact hR.refl s

theorem LineClosed.endWaiting (o : CompletionOutcome) : R s (endWaiting n o s) :=
  hR.trans (hR.line s _) (hR.table (completeIfAny_same _ _ _).table)

theorem LineClosed.startRetry : R s (startRetry n s) := by
  unfold Machine.startRetry; dsimp only; split
  · exact hR.line s _
  · exact hR.refl s

theorem LineClosed.endProbe (c : IsolationCause) : R s (endProbe n c s) := hR.trans (hR.order s _) (hR.line _ _)

theorem LineClosed.withdrawConfirm (x : Subject) : R s (withdrawConfirm x s) := hR.queues s _ _

theorem LineClosed.withdrawVerify (x : Subject) : R s (withdrawVerify x s) := hR.queues s _ _

theorem LineClosed.placeVerify (x : Subject) : R s (placeVerify id x s) := by
  rw [placeVerify_id]; exact hR.queues s _ _

theorem LineClosed.placeConfirm (x : Subject) : R s (placeConfirm x s) := by
  rw [placeConfirm_eq]; exact hR.queues s _ _

theorem LineClosed.placeLineIfCounting : R s (placeLineIfCounting n s) := by
  unfold Machine.placeLineIfCounting; split
  · exact hR.placeConfirm s _
  · exact hR.refl s

theorem LineClosed.maskedStep : R s (maskedStep n s) := hR.trans (hR.line s _) (hR.table (raiseBlind_same _ n))

theorem LineClosed.usableStep : R s (usableStep n s) := by
  unfold Machine.usableStep; split
  · exact hR.trans (hR.table (clear_same s _ _)) (hR.line _ _)
  · exact hR.refl s

theorem LineClosed.isolateProtectively (old : LineClass) : R s (isolateProtectively n old s) :=
  hR.trans (hR.order s _) <| hR.trans (hR.line _ _) <| hR.trans (hR.withdrawConfirm _ _) <|
    hR.trans (hR.table (sendClassChange_same _ n _ _)) (hR.startRetry _)

theorem LineClosed.confirmedChange (old : LineClass) : R s (confirmedChange n old s) := by
  unfold Machine.confirmedChange; dsimp only; split
  · exact hR.isolateProtectively s old
  · exact hR.table (sendClassChange_same s n _ _)

theorem LineClosed.probeSucceeds : R s (probeSucceeds n s) :=
  hR.trans (hR.order s _) <| hR.trans (hR.line _ _) <| hR.trans (hR.table (clearClass_same _ n _)) <|
    hR.trans (hR.line _ _) (hR.endWaiting _ _)

theorem LineClosed.setLearned (z : Nat) : R s (setLearned n z s) :=
  hR.trans (hR.line s _) <| hR.trans (hR.line _ _) <| hR.trans (hR.withdrawConfirm _ _) (hR.table (clear_same _ _ _))

theorem LineClosed.learnSample (vc ic : Code) (ov : Bool) : R s (learnSample n vc ic ov s) := by
  unfold Machine.learnSample; dsimp only
  split
  · exact hR.ended s _
  · split
    · exact hR.ended s _
    · split
      · exact hR.line s _
      · split
        · exact hR.trans (hR.line s _) (hR.ended _ _)
        · exact hR.trans (hR.trans (hR.line s _) (hR.setLearned _ _)) (hR.ended _ _)

end LineClosed

/-- The line ordered is at, or moving to, the position, and nothing else of it has changed but the relay operation, the epoch
and the learn accumulator (R5, R58). -/
theorem line_orderSelector_same (pos : Selector) : ∃ r e a, (orderSelector n pos s).line n =
    { s.line n with selector := pos, relayLeft := r, epoch := e, learn := a } := by
  obtain ⟨a, e⟩ := line_orderSelector s n pos n
  by_cases h : (s.line n).selector = pos
  · exact ⟨(s.line n).relayLeft, (s.line n).epoch, a, by rw [e]; subst h; simp⟩
  · exact ⟨some relayMs, (s.line n).epoch + 1, a, by rw [e]; simp [h, Line.ordered]⟩

@[simp] theorem line_endWaiting (o : CompletionOutcome) : (endWaiting n o s).line n = { s.line n with waiting := none } := by
  simp [endWaiting]

theorem line_endProbe (c : IsolationCause) : ∃ r e a, (endProbe n c s).line n =
    { s.line n with
      selector := .off, relayLeft := r, epoch := e, learn := a, state := .isolated, cause := c, passCount := 0 } := by
  obtain ⟨r, e, a, h⟩ := line_orderSelector_same s n .off
  exact ⟨r, e, a, by simp [endProbe, h]⟩

/-! ### Classification readings (R41 to R53) -/

@[simp] theorem line_maskedStep :
    (maskedStep n s).line n = { s.line n with masked := min 255 ((s.line n).masked + 1) } := by simp [maskedStep]

@[simp] theorem line_usableStep : (usableStep n s).line n = { s.line n with masked := 0 } := by
  unfold usableStep; split
  · simp
  · next h => rw [← Nat.eq_zero_of_not_pos h]

/-- Protective isolation (R8): the line goes to OPEN and its retry timer starts. -/
theorem line_isolateProtectively (old : LineClass) : ∃ r e a, (isolateProtectively n old s).line n =
    { s.line n with
      selector := .off, relayLeft := r, epoch := e, learn := a, state := .isolated, cause := .protective
      timer := (s.line n).timerAfterShort s.runs } := by
  obtain ⟨r, e, a, h⟩ := line_orderSelector_same s n .off
  refine ⟨r, e, a, ?_⟩
  unfold isolateProtectively
  dsimp only
  rw [startRetry_line, (sendClassChange_same _ n old .short).lineWork.runs]
  simp only [line_sendClassChange, line_withdrawConfirm, line_setLine_same, h]
  rw [(withdrawConfirm_work _ _).runs, runs_setLine, (orderSelector_work s n .off).runs]
  rfl

/-- The record of a CONNECTED line with its debounce stepped on a usable classification reading (R42 to R48). -/
def Line.judged (l : Line) (vc ic : Code) : Line :=
  let d := (l.measured vc ic).stepClass
  { l.measured vc ic with confirmed := d.confirmed, candidate := d.candidate, count := d.count }

/-- The reading confirms a change of class (R48). -/
def Line.confirmsClass (l : Line) (vc ic : Code) : Bool := (l.measured vc ic).stepClass.changed

/-- The judgement of a usable classification reading: the debounce, and what a confirmed change does (R41, R48, R50). -/
def classJudged (n : LineNo) (vc ic : Code) (s : State) : State :=
  let u := s.setLine n ((s.line n).judged vc ic)
  if (s.line n).confirmsClass vc ic then confirmedChange n (s.line n).confirmed u else u

/-- The cases of a classification reading of a CONNECTED line (R41). -/
theorem classificationReading_cases (vc ic : Code) (ov : Bool) (h : (s.line n).state = .connected) :
    classificationReading n vc ic ov s =
      placeLineIfCounting n (if ov then maskedStep n s else usableStep n (classJudged n vc ic s)) := by
  unfold classificationReading
  cases ov with
  | true => simp [h]
  | false => simp only [h, ne_eq, not_true_eq_false, ↓reduceIte, Bool.false_eq_true]; rfl

section
variable {n : LineNo} {R : State → State → Prop} (hR : LineClosed n R)
include hR

theorem LineClosed.classJudged (vc ic : Code) : R s (classJudged n vc ic s) := by
  unfold Machine.classJudged; dsimp only; split
  · exact hR.trans (hR.line s _) (hR.confirmedChange _ _)
  · exact hR.line s _

theorem LineClosed.classificationReading (vc ic : Code) (ov : Bool) : R s (classificationReading n vc ic ov s) := by
  by_cases h : (s.line n).state = .connected
  · rw [classificationReading_cases s n vc ic ov h]
    refine hR.trans ?_ (hR.placeLineIfCounting _)
    split
    · exact hR.maskedStep s
    · exact hR.trans (hR.classJudged s vc ic) (hR.usableStep _)
  · simp only [Machine.classificationReading, ne_eq, h, not_false_eq_true, ↓reduceIte]
    exact hR.refl s

end

/-- A confirmed SHORT takes a CONNECTED line to OPEN (R8). -/
theorem line_classJudged_short (vc ic : Code) (h : (s.line n).state = .connected)
    (hc : (s.line n).confirmsClass vc ic = true) (hs : ((s.line n).judged vc ic).confirmed = .short) :
    ∃ r e a, (classJudged n vc ic s).line n = { (s.line n).judged vc ic with
      selector := .off, relayLeft := r, epoch := e, learn := a, state := .isolated, cause := .protective
      timer := (s.line n).timerAfterShort s.runs } := by
  have hj : ((s.line n).judged vc ic).state = .connected := h
  obtain ⟨r, e, a, hr⟩ := line_isolateProtectively (s.setLine n ((s.line n).judged vc ic)) n (s.line n).confirmed
  have isolated : classJudged n vc ic s =
      isolateProtectively n (s.line n).confirmed (s.setLine n ((s.line n).judged vc ic)) := by
    simp [classJudged, confirmedChange, hc, hs, hj]
  exact ⟨r, e, a, by rw [isolated, hr, line_setLine_same]; rfl⟩

/-- Any other usable classification reading leaves its line CONNECTED, with its debounce stepped. -/
theorem line_classJudged (vc ic : Code)
    (hs : ¬((s.line n).confirmsClass vc ic = true ∧ ((s.line n).judged vc ic).confirmed = .short)) :
    (classJudged n vc ic s).line n = (s.line n).judged vc ic := by
  unfold classJudged; dsimp only; split
  · next hc =>
    have : ((s.line n).judged vc ic).confirmed ≠ .short := fun h => hs ⟨hc, h⟩
    simp [confirmedChange, this]
  · simp

/-! ### Probe readings (R12 to R14) -/

/-- A probe that succeeds reconnects its line (R13). -/
theorem line_probeSucceeds : ∃ r e a, (probeSucceeds n s).line n =
    { s.line n with
      selector := .bus (s.line n).current, relayLeft := r, epoch := e, learn := a, state := .connected, cause := .noCause
      retryCount := 0, passCount := 0, confirmed := .normal, candidate := none, count := 0, waiting := none } := by
  obtain ⟨r, e, a, h⟩ := line_orderSelector_same s n (.bus (s.line n).current)
  exact ⟨r, e, a, by simp [probeSucceeds, dropDebounce, h]⟩

/-- The record of a line whose probe has failed, before the lock or the retry timer and but for its selector (R14). -/
def Line.lost (l : Line) : Line :=
  { l with
    state := .isolated, cause := .protective, passCount := 0, retryCount := l.retryCount + 1, confirmed := .short
    candidate := none, count := 0, waiting := none }

/-- The lock at the retry limit, or the start of the retry timer, of a failed probe (R14). -/
def Line.retried (l : Line) (runs : Bool) : Line :=
  if l.cfg.retryLimit ≤ l.retryCount then { l with state := .locked, cause := .lockout, timer := .idle }
  else { l with timer := l.timerAfterShort runs }

/-- The class change that a failed probe sends (R14). -/
def failedClass (n : LineNo) (s : State) : State :=
  if (s.line n).confirmed = .short then s
  else sendClassChange n (s.line n).confirmed .short (s.setLine n { s.line n with confirmed := .short })

/-- A failed probe up to the lock or the retry timer (R14). -/
def probeLost (n : LineNo) (s : State) : State :=
  let s := endProbe n .protective s
  let s := s.setLine n { s.line n with retryCount := (s.line n).retryCount + 1 }
  endWaiting n .restoreFailed (dropDebounce n (failedClass n s))

/-- The end of a failed probe, locked at the limit and otherwise with the retry timer (R14). -/
theorem probeFails_eq : probeFails n s =
    let t := probeLost n s
    if (t.line n).cfg.retryLimit ≤ (t.line n).retryCount then
      t.setLine n { t.line n with state := .locked, cause := .lockout, timer := .idle }
    else startRetry n t := rfl

section
variable {n : LineNo} {R : State → State → Prop} (hR : LineClosed n R)
include hR

theorem LineClosed.failedClass : R s (failedClass n s) := by
  unfold Machine.failedClass; split
  · exact hR.refl s
  · exact hR.trans (hR.line s _) (hR.table (sendClassChange_same _ n _ _))

theorem LineClosed.probeLost : R s (probeLost n s) :=
  hR.trans (hR.endProbe s _) <| hR.trans (hR.line _ _) <| hR.trans (hR.failedClass _) <|
    hR.trans (hR.line _ _) (hR.endWaiting _ _)

theorem LineClosed.probeFails : R s (probeFails n s) := by
  rw [probeFails_eq]; dsimp only; split
  · exact hR.trans (hR.probeLost s) (hR.line _ _)
  · exact hR.trans (hR.probeLost s) (hR.startRetry _)

end

@[simp] theorem line_failedClass : (failedClass n s).line n = { s.line n with confirmed := .short } := by
  unfold failedClass; split
  · next h => rw [← h]
  · simp

theorem line_probeLost : ∃ r e a, (probeLost n s).line n =
    { (s.line n).lost with selector := .off, relayLeft := r, epoch := e, learn := a } := by
  obtain ⟨r, e, a, h⟩ := line_endProbe s n .protective
  exact ⟨r, e, a, by simp [probeLost, dropDebounce, h, Line.lost]⟩

/-- A probe that fails leaves its line at OPEN, with a retry counted (R14). -/
theorem line_probeFails : ∃ r e a, (probeFails n s).line n =
    { (s.line n).lost.retried s.runs with selector := .off, relayLeft := r, epoch := e, learn := a } := by
  obtain ⟨r, e, a, h⟩ := line_probeLost s n
  refine ⟨r, e, a, ?_⟩
  rw [probeFails_eq, Line.retried]
  simp only [h]
  split
  · simp
  · rw [startRetry_line, h, (onlyLine_closed n |>.probeLost s).work.runs]
    rfl

/-- The record of a PROBING line after a usable reading, before the probe is decided (R42 to R45, R53). -/
def Line.probed (l : Line) (vc ic : Code) : Line := { l.measured vc ic with masked := 0 }

/-- A usable probe reading taken, before the probe is decided. -/
def probeTaken (n : LineNo) (vc ic : Code) (s : State) : State := usableStep n (s.setLine n ((s.line n).measured vc ic))

@[simp] theorem line_probeTaken (vc ic : Code) : (probeTaken n vc ic s).line n = (s.line n).probed vc ic := by
  simp [probeTaken, Line.probed]

/-- The cases of a probe reading (R12). -/
theorem probeReading_cases (vc ic : Code) (ov : Bool) (h : (s.line n).state = .probing) :
    probeReading id n vc ic ov s =
      if ov then placeVerify id (.line n) (maskedStep n s)
      else
        let u := probeTaken n vc ic s
        if rawImpedance vc ic (s.line n).cfg.gain ≤ (s.line n).cfg.shortFloor then probeFails n u
        else
          let v := u.setLine n { u.line n with passCount := (s.line n).passCount + 1 }
          if (s.line n).cfg.clearCount ≤ (s.line n).passCount + 1 then probeSucceeds n v else placeVerify id (.line n) v := by
  have e : (probeTaken n vc ic s).line n = (s.line n).probed vc ic := line_probeTaken s n vc ic
  unfold probeReading probePasses
  cases ov with
  | true => simp [h]
  | false =>
    simp only [h, ne_eq, not_true_eq_false, ↓reduceIte, Bool.false_eq_true, line_setLine_same]
    change (if rawImpedance vc ic ((probeTaken n vc ic s).line n).cfg.gain ≤ ((probeTaken n vc ic s).line n).cfg.shortFloor
      then _ else if ((probeTaken n vc ic s).line n).cfg.clearCount ≤ ((probeTaken n vc ic s).line n).passCount + 1
      then probeSucceeds n ((probeTaken n vc ic s).setLine n
        { (probeTaken n vc ic s).line n with passCount := ((probeTaken n vc ic s).line n).passCount + 1 })
      else placeVerify id (.line n) ((probeTaken n vc ic s).setLine n
        { (probeTaken n vc ic s).line n with passCount := ((probeTaken n vc ic s).line n).passCount + 1 })) = _
    rw [e]
    rfl

section
variable {n : LineNo} {R : State → State → Prop} (hR : LineClosed n R)
include hR

theorem LineClosed.probeTaken (vc ic : Code) : R s (probeTaken n vc ic s) := hR.trans (hR.line s _) (hR.usableStep _)

theorem LineClosed.probeReading (vc ic : Code) (ov : Bool) : R s (probeReading id n vc ic ov s) := by
  by_cases h : (s.line n).state = .probing
  · rw [probeReading_cases s n vc ic ov h]
    have taken := hR.probeTaken s vc ic
    split
    · exact hR.trans (hR.maskedStep s) (hR.placeVerify _ _)
    · dsimp only; split
      · exact hR.trans taken (hR.probeFails _)
      · split
        · exact hR.trans (hR.trans taken (hR.line _ _)) (hR.probeSucceeds _)
        · exact hR.trans (hR.trans taken (hR.line _ _)) (hR.placeVerify _ _)
  · simp only [Machine.probeReading, ne_eq, h, not_false_eq_true, ↓reduceIte]
    exact hR.refl s

end

/-! ### Learn samples (R56, R57) -/

theorem line_endLearn_same (o : CompletionOutcome) : ∃ a, (endLearn o s).line n = { s.line n with learn := a } := by
  obtain e | e := line_endLearn s o n
  · exact ⟨(s.line n).learn, by rw [e]⟩
  · exact ⟨none, e⟩

@[simp] theorem line_setLearned (z : Nat) : (setLearned n z s).line n =
    { s.line n with
      cfg := { (s.line n).cfg with zref := some z }, deviation := deviationOf (some z) (s.line n).zf
      candidate := none, count := 0 } := by
  simp [setLearned, dropDebounce]

/-- A learn sample changes its line's accumulator, or makes a new reference, with the debounce dropped (R56, R57). -/
theorem line_learnSample (vc ic : Code) (ov : Bool) : ∃ a, (learnSample n vc ic ov s).line n = { s.line n with learn := a } ∨
    ∃ z, (learnSample n vc ic ov s).line n =
      { s.line n with
        cfg := { (s.line n).cfg with zref := some z }, deviation := deviationOf (some z) (s.line n).zf
        candidate := none, count := 0, learn := a } := by
  unfold learnSample; dsimp only
  split
  · obtain ⟨a, e⟩ := line_endLearn_same s n .learnDisturbed
    exact ⟨a, .inl e⟩
  · split
    · obtain ⟨a, e⟩ := line_endLearn_same s n .learnOpen
      exact ⟨a, .inl e⟩
    · split
      · exact ⟨_, .inl (line_setLine_same s n _)⟩
      · split
        · obtain ⟨a, e⟩ := line_endLearn_same (s.setLine n _) n .learnShort
          exact ⟨a, .inl (by rw [e, line_setLine_same])⟩
        · obtain ⟨a, e⟩ := line_endLearn_same (setLearned n _ (s.setLine n _)) n .learnDone
          exact ⟨a, .inr ⟨learnedReference _, by rw [e, line_setLearned, line_setLine_same]⟩⟩

/-! ### Earth readings (R64 to R67) -/

/-- The record of a line after an EARTH result (R64, R65). -/
def Line.earthed (l : Line) (lc : Code) (trip : Bool) : Line :=
  let code := effectiveLc lc trip
  let d := debounce l.earth l.earthCandidate l.earthCount (requiredEarth l.cfg)
    (if isTrip l.cfg.threshold code trip then .leak else .normal)
  { l with lastLc := some code, earth := d.confirmed, earthCandidate := d.candidate, earthCount := d.count }

/-- The EARTH result confirms a change of the earth state (R66). -/
def Line.confirmsEarth (l : Line) (lc : Code) (trip : Bool) : Bool :=
  (debounce l.earth l.earthCandidate l.earthCount (requiredEarth l.cfg)
    (if isTrip l.cfg.threshold (effectiveLc lc trip) trip then .leak else .normal)).changed

/-- The cases of an EARTH result (R64). -/
theorem earthReading_cases (lc : Code) (trip : Bool) : earthReading n lc trip s =
    if (s.line n).state = .disabled ∨ (s.line n).cfg.earthCheck = false then s
    else
      let u := s.setLine n ((s.line n).earthed lc trip)
      if (s.line n).confirmsEarth lc trip then sendEarth n u else u := by
  unfold earthReading Line.confirmsEarth Line.earthed
  simp only [Bool.not_eq_true']

theorem LineClosed.earthReading {n : LineNo} {R : State → State → Prop} (hR : LineClosed n R) (lc : Code) (trip : Bool) :
    R s (earthReading n lc trip s) := by
  rw [earthReading_cases]; split
  · exact hR.refl s
  · dsimp only; split
    · exact hR.trans (hR.line s _) (hR.table (sendEarth_same _ n))
    · exact hR.line s _

theorem line_earthReading (lc : Code) (trip : Bool) : (earthReading n lc trip s).line n =
    if (s.line n).state = .disabled ∨ (s.line n).cfg.earthCheck = false then s.line n
    else (s.line n).earthed lc trip := by
  rw [earthReading_cases]; split
  · rfl
  · dsimp only; split <;> simp

end Sys2Proof.Machine
end

section
/-! PROOFS. The line and amplifier records and the selectors in order outside LOADING, kept by what every block does. -/

namespace Sys2Proof.Machine

/-! ### Records and states in order -/

/-- A line record is in order and, where `sel` asks for it, its selector at the position of its state (R4). -/
def Line.inOrder (sel : Bool) (l : Line) : Prop := l.ok = true ∧ (sel = true → l.selector = restPosition .active l)

/-- Outside LOADING, every line and amplifier record in order. -/
structure InOrder (sel : Bool) (s : State) : Prop where
  mode : s.mc.mode ≠ .loading
  lines : ∀ n, (s.line n).inOrder sel
  amps : ∀ k, (s.amp k).ok = true

variable {sel : Bool}

/-- Outside LOADING a selector's position does not depend on the mode (R4). -/
theorem restPosition_of_ne {mode : Mode} (h : mode ≠ .loading) (l : Line) :
    restPosition mode l = restPosition .active l := by simp [restPosition, h]

/-- What the chapters promise of one line record, one promise after another. -/
theorem Line.ok_iff (l : Line) : l.ok = true ↔
    l.causeOk = true ∧ debounceOk l.candidate l.count (requiredCount l.cfg) = true ∧
      debounceOk l.earthCandidate l.earthCount (requiredEarth l.cfg) = true ∧
      (l.state = .connected ∨ l.candidate = none) ∧ l.restsOk = true ∧ l.masked ≤ 255 := by
  simp [Line.ok, and_assoc]

/-- A record made from one in order, with its debounce at rest and the earth debounce as it stood. -/
theorem Line.inOrder.rested {l m : Line} (h : l.inOrder sel) (earth : debounceOk l.earthCandidate l.earthCount
      (requiredEarth l.cfg) = true → debounceOk m.earthCandidate m.earthCount (requiredEarth m.cfg) = true)
    (candidate : m.candidate = none) (count : m.count = 0) (masked : m.masked ≤ 255) (cause : m.causeOk = true)
    (rests : m.restsOk = true) (pos : sel = true → m.selector = restPosition .active m) : m.inOrder sel := by
  obtain ⟨-, -, hearth, -, -, -⟩ := (Line.ok_iff l).mp h.1
  exact ⟨(Line.ok_iff m).mpr ⟨cause, by rw [candidate, count]; rfl, earth hearth, .inr candidate, rests, masked⟩, pos⟩

theorem Line.inOrder.masked {l : Line} (h : l.inOrder sel) : l.masked ≤ 255 := by
  obtain ⟨-, -, -, -, -, masked⟩ := (Line.ok_iff l).mp h.1
  exact masked

theorem Line.inOrder.rests {l : Line} (h : l.inOrder sel) : l.restsOk = true := by
  obtain ⟨-, -, -, -, rests, -⟩ := (Line.ok_iff l).mp h.1
  exact rests

/-- Off its bus a line has no debounce (R48). -/
theorem Line.inOrder.no_candidate {l : Line} (h : l.inOrder sel) (hs : l.state ≠ .connected) :
    l.candidate = none ∧ l.count = 0 := by
  obtain ⟨-, debounce, -, candidate, -, -⟩ := (Line.ok_iff l).mp h.1
  have none := candidate.resolve_left hs
  rw [none] at debounce
  exact ⟨none, by simpa [debounceOk] using debounce⟩

theorem Line.inOrder.learn {l : Line} (h : l.inOrder sel) (a : Option LearnAcc) :
    ({ l with learn := a } : Line).inOrder sel := h

theorem Line.inOrder.timer {l : Line} (h : l.inOrder sel) {u : RetryTimer} (hu : l.timer = .idle → u = .idle) :
    ({ l with timer := u } : Line).inOrder sel := by
  obtain ⟨cause, debounce, earth, candidate, rests, masked⟩ := (Line.ok_iff l).mp h.1
  refine ⟨(Line.ok_iff _).mpr ⟨cause, debounce, earth, candidate, ?_, masked⟩, h.2⟩
  cases hs : l.state <;> simp_all [Line.restsOk]

theorem freeze_idle {u : RetryTimer} (h : u = .idle) : u.freeze = .idle := by rw [h]; rfl

theorem resume_idle {u : RetryTimer} (h : u = .idle) : u.resume = .idle := by rw [h]; rfl

section States
variable {s t : State}

theorem InOrder.congr (h : InOrder sel s) (hl : t.lines = s.lines) (ha : t.amps = s.amps) (hm : t.mc.mode ≠ .loading) :
    InOrder sel t :=
  ⟨hm, fun n => by rw [line_congr hl]; exact h.lines n, fun k => by rw [amp_congr ha]; exact h.amps k⟩

/-- The work of the line supervisor on one line keeps the records in order where it leaves that line's in order. -/
theorem InOrder.only {n : LineNo} (h : InOrder sel s) (ho : OnlyLine n s t) (hn : (t.line n).inOrder sel) :
    InOrder sel t := by
  refine ⟨by rw [ho.work.mc]; exact h.mode, fun m => ?_, fun k => by rw [amp_congr ho.work.amps]; exact h.amps k⟩
  by_cases hm : m = n
  · rw [hm]; exact hn
  · obtain ⟨a, e⟩ := ho.others m hm
    rw [e]; exact (h.lines m).learn a

theorem InOrder.mapLines (h : InOrder sel s) {f : Line → Line} (hf : ∀ l, l.inOrder sel → (f l).inOrder sel) :
    InOrder sel (s.mapLines f) :=
  ⟨h.mode, fun n => by rw [line_mapLines]; exact hf _ (h.lines n), h.amps⟩

theorem InOrder.answer (h : InOrder sel s) (p : Port) (r : Reply) : InOrder sel (s.answer p r) := h.congr rfl rfl h.mode

theorem InOrder.table (h : InOrder sel s) (ht : SameButTable s t) : InOrder sel t :=
  h.congr ht.lines ht.amps (by rw [ht.mc]; exact h.mode)

end States

/-! ### What the blocks do -/

/-- An order that takes a line to the position of its state leaves it in order. -/
theorem moveLine_inOrder {s : State} (h : InOrder sel s) (y : AmpNo) (n : LineNo) : InOrder sel (moveLine y s n) := by
  obtain ⟨ok, pos⟩ := h.lines n
  unfold moveLine; dsimp only
  split
  · next hc =>
    rw [line_setLine_same] at hc
    refine h.only ((setLine_onlyLine s n _).trans (orderSelector_onlyLine _ n _)) ?_
    obtain ⟨r, e, a, ho⟩ := line_orderSelector_same (s.setLine n { s.line n with current := y }) n (.bus y)
    rw [ho, line_setLine_same]
    exact ⟨ok, fun _ => by simp_all [restPosition]⟩
  · next hc =>
    rw [line_setLine_same] at hc
    refine h.only (setLine_onlyLine s n _) ?_
    rw [line_setLine_same]
    refine ⟨ok, fun hs => ?_⟩
    cases hl : (s.line n).state <;> simp_all [restPosition]

/-- What the blocks do outside LOADING keeps the records in order. -/
theorem inOrder_closed (sel : Bool) : Closed fun s t => InOrder sel s → InOrder sel t where
  refl _ h := h
  trans h g hs := g (h hs)
  table ht h := h.table ht
  verify _ _ _ h := h.congr rfl rfl h.mode
  withdraw _ _ h := h.congr rfl rfl h.mode
  place _ _ h := by rw [placeConfirm_eq]; exact h.congr rfl rfl h.mode
  co _ _ h := h.congr rfl rfl h.mode
  move _ _ h := h.congr rfl rfl h.mode
  settles _ _ _ h := h.congr rfl rfl h.mode
  active _ _ h := h.congr rfl rfl (by simp)
  moveLine _ y n h := moveLine_inOrder h y n
  amp s k x hx h := by
    refine ⟨h.mode, h.lines, fun j => ?_⟩
    rw [amp_setAmp]; split
    · obtain ⟨kept, disabled⟩ := hx
      have ok := h.amps k
      rw [kept]
      simp only [Amp.ok, Bool.and_eq_true, Bool.or_eq_true, decide_eq_true_eq, ne_eq] at ok ⊢
      exact ⟨ok.1, ok.2.imp_left fun hd e => hd (disabled e)⟩
    · exact h.amps j
  verifyFails s k ac prot h := by
    refine ⟨h.mode, h.lines, fun j => ?_⟩
    rw [amp_setAmp]; split
    · simp [Amp.ok, debounceOk]
    · exact h.amps j
  freeze s _ _ _ h :=
    (InOrder.congr h (t := { s with mc.mode := .standby }) rfl rfl (by simp)).mapLines fun _ hl => hl.timer freeze_idle

theorem inOrder_search (sel : Bool) : SearchClosed fun s t => InOrder sel s → InOrder sel t :=
  (inOrder_closed sel).search fun _ _ h => h.congr rfl rfl h.mode

theorem arrival_inOrder {s : State} (h : InOrder sel s) : InOrder sel (arrival s) := (inOrder_search sel).arrival s h

theorem placeVerify_inOrder {arr : Arrive} (ha : ∀ s, InOrder sel s → InOrder sel (arr s)) {s : State} (h : InOrder sel s)
    (x : Subject) : InOrder sel (placeVerify arr x s) := by
  unfold placeVerify; split
  · exact h
  · exact ha _ ((inOrder_search sel).chan s _ h)

theorem grantAttempt_inOrder {s : State} (h : InOrder sel s) : InOrder sel (grantAttempt arrival s) :=
  (inOrder_closed sel).grantAttempt s (fun _ => arrival_inOrder) h

theorem reportMove_inOrder {s : State} (h : InOrder sel s) : InOrder sel (reportMove arrival s) :=
  (inOrder_closed sel).reportMove s (fun _ => arrival_inOrder) h

/-! ### Readings on a line -/

/-- The debounce of an impedance class after a step is in order (R48). -/
theorem debounceOk_debounce {α : Type} [DecidableEq α] (confirmed : α) (candidate : Option α) (count : Nat)
    (required : α → Nat) (x : α) :
    debounceOk (debounce confirmed candidate count required x).candidate
      (debounce confirmed candidate count required x).count required = true := by
  obtain ⟨-, e⟩ | ⟨-, c, hc, ⟨-, e⟩ | ⟨lt, e⟩⟩ := debounce_cases confirmed candidate count required x
  · rw [e]; rfl
  · rw [e]; rfl
  · rw [e]
    have : 1 ≤ c := by rw [hc]; split <;> omega
    simpa [debounceOk] using ⟨this, lt⟩

/-- A confirmed value leaves no candidate (R48). -/
theorem debounce_changed {α : Type} [DecidableEq α] {confirmed : α} {candidate : Option α} {count : Nat}
    {required : α → Nat} {x : α} (h : (debounce confirmed candidate count required x).changed = true) :
    (debounce confirmed candidate count required x).candidate = none ∧
      (debounce confirmed candidate count required x).count = 0 := by
  obtain ⟨-, e⟩ | ⟨-, c, -, ⟨-, e⟩ | ⟨-, e⟩⟩ := debounce_cases confirmed candidate count required x
  · rw [e] at h; simp at h
  · rw [e]; exact ⟨rfl, rfl⟩
  · rw [e] at h; simp at h

theorem judged_inOrder {l : Line} (vc ic : Code) (hc : l.state = .connected) (h : l.inOrder sel) :
    (l.judged vc ic).inOrder sel := by
  obtain ⟨cause, -, earth, -, rests, masked⟩ := (Line.ok_iff l).mp h.1
  exact ⟨(Line.ok_iff _).mpr ⟨cause, debounceOk_debounce _ _ _ _ _, earth, .inl hc, rests, masked⟩, h.2⟩

theorem withMasked_inOrder {l : Line} (h : l.inOrder sel) {x : Nat} (hx : x ≤ 255) :
    ({ l with masked := x } : Line).inOrder sel := by
  obtain ⟨cause, debounce, earth, candidate, rests, -⟩ := (Line.ok_iff l).mp h.1
  exact ⟨(Line.ok_iff _).mpr ⟨cause, debounce, earth, candidate, rests, hx⟩, h.2⟩

theorem classificationReading_inOrder {s : State} (h : InOrder sel s) (n : LineNo) (vc ic : Code) (ov : Bool) :
    InOrder sel (classificationReading n vc ic ov s) := by
  by_cases hc : (s.line n).state = .connected
  · refine h.only ((onlyLine_closed n).classificationReading s vc ic ov) ?_
    rw [classificationReading_cases s n vc ic ov hc, line_placeLineIfCounting]
    cases ov with
    | true =>
      rw [if_pos rfl, line_maskedStep]
      exact withMasked_inOrder (h.lines n) (Nat.min_le_left _ _)
    | false =>
      rw [if_neg (by simp), line_usableStep]
      refine withMasked_inOrder ?_ (Nat.zero_le _)
      have judged := judged_inOrder vc ic hc (h.lines n)
      by_cases hs : (s.line n).confirmsClass vc ic = true ∧ ((s.line n).judged vc ic).confirmed = .short
      · obtain ⟨r, e, a, hr⟩ := line_classJudged_short s n vc ic hc hs.1 hs.2
        obtain ⟨candidate, count⟩ := debounce_changed hs.1
        rw [hr]
        exact judged.rested id candidate count judged.masked rfl rfl fun _ => rfl
      · rw [line_classJudged s n vc ic hs]
        exact judged
  · simp only [classificationReading, ne_eq, hc, not_false_eq_true, ↓reduceIte]
    exact h

theorem probed_inOrder {l : Line} (vc ic : Code) (h : l.inOrder sel) : (l.probed vc ic).inOrder sel :=
  withMasked_inOrder (l := l.measured vc ic) h (Nat.zero_le _)

theorem probeFails_inOrder {s : State} (h : InOrder sel s) (n : LineNo) : InOrder sel (probeFails n s) := by
  refine h.only ((onlyLine_closed n).probeFails s) ?_
  obtain ⟨r, e, a, hr⟩ := line_probeFails s n
  rw [hr, Line.retried]
  split
  · exact (h.lines n).rested id rfl rfl (h.lines n).masked rfl rfl fun _ => rfl
  · exact (h.lines n).rested id rfl rfl (h.lines n).masked rfl rfl fun _ => rfl

theorem probeSucceeds_inOrder {s : State} (h : InOrder sel s) (n : LineNo) (hp : (s.line n).state = .probing) :
    InOrder sel (probeSucceeds n s) := by
  refine h.only ((onlyLine_closed n).probeSucceeds s) ?_
  obtain ⟨r, e, a, hr⟩ := line_probeSucceeds s n
  rw [hr]
  have rests := (h.lines n).rests
  refine (h.lines n).rested id rfl rfl (h.lines n).masked rfl ?_ fun _ => rfl
  simpa [Line.restsOk, hp] using rests

theorem placeVerify_id_inOrder {s : State} (h : InOrder sel s) (x : Subject) : InOrder sel (placeVerify id x s) :=
  placeVerify_inOrder (fun _ => id) h x

theorem probeReading_inOrder {s : State} (h : InOrder sel s) (n : LineNo) (vc ic : Code) (ov : Bool) :
    InOrder sel (probeReading id n vc ic ov s) := by
  by_cases hp : (s.line n).state = .probing
  · have taken : InOrder sel (probeTaken n vc ic s) :=
      h.only ((onlyLine_closed n).probeTaken s vc ic) (by rw [line_probeTaken]; exact probed_inOrder vc ic (h.lines n))
    have line := line_probeTaken s n vc ic
    rw [probeReading_cases s n vc ic ov hp]
    split
    · refine placeVerify_id_inOrder ?_ _
      refine h.only ((onlyLine_closed n).maskedStep s) ?_
      rw [line_maskedStep]
      exact withMasked_inOrder (h.lines n) (Nat.min_le_left _ _)
    · dsimp only
      have counted : InOrder sel ((probeTaken n vc ic s).setLine n
          { (probeTaken n vc ic s).line n with passCount := (s.line n).passCount + 1 }) :=
        taken.only (setLine_onlyLine _ n _) (by rw [line_setLine_same]; exact taken.lines n)
      split
      · exact probeFails_inOrder taken n
      · split
        · exact probeSucceeds_inOrder counted n (by rw [line_setLine_same, line]; exact hp)
        · exact placeVerify_id_inOrder counted _
  · simp only [probeReading, ne_eq, hp, not_false_eq_true, ↓reduceIte]
    exact h

/-- A line record with its impedance debounce dropped is in order. -/
theorem Line.inOrder.dropped {l : Line} (h : l.inOrder sel) {m : Line} (cause : m.causeOk = l.causeOk)
    (earth : debounceOk l.earthCandidate l.earthCount (requiredEarth l.cfg) = true →
      debounceOk m.earthCandidate m.earthCount (requiredEarth m.cfg) = true)
    (candidate : m.candidate = none) (count : m.count = 0) (masked : m.masked = l.masked) (rests : m.restsOk = l.restsOk)
    (pos : m.selector = restPosition .active m ↔ l.selector = restPosition .active l) : m.inOrder sel := by
  obtain ⟨hcause, -, -, -, hrests, hmasked⟩ := (Line.ok_iff l).mp h.1
  exact h.rested earth candidate count (masked ▸ hmasked) (cause.trans hcause) (rests.trans hrests)
    fun hs => pos.mpr (h.2 hs)

theorem learnSample_inOrder {s : State} (h : InOrder sel s) (n : LineNo) (vc ic : Code) (ov : Bool) :
    InOrder sel (learnSample n vc ic ov s) := by
  refine h.only ((onlyLine_closed n).learnSample s vc ic ov) ?_
  obtain ⟨a, e | ⟨z, e⟩⟩ := line_learnSample s n vc ic ov
  · rw [e]; exact (h.lines n).learn a
  · rw [e]; exact (h.lines n).dropped rfl id rfl rfl rfl rfl .rfl

theorem earthReading_inOrder {s : State} (h : InOrder sel s) (n : LineNo) (lc : Code) (trip : Bool) :
    InOrder sel (earthReading n lc trip s) := by
  refine h.only ((onlyLine_closed n).earthReading s lc trip) ?_
  rw [line_earthReading]
  split
  · exact h.lines n
  · next hd =>
    obtain ⟨cause, debounce, -, candidate, rests, masked⟩ := (Line.ok_iff _).mp (h.lines n).1
    refine ⟨(Line.ok_iff _).mpr ⟨cause, debounce, debounceOk_debounce _ _ _ _ _, candidate, ?_, masked⟩,
      (h.lines n).2⟩
    cases hs : (s.line n).state <;> simp_all [Line.restsOk, Line.earthed]

theorem setAmp_inOrder {s : State} (h : InOrder sel s) (k : AmpNo) {x : Amp} (hx : x.ok = true) :
    InOrder sel (s.setAmp k x) := by
  refine ⟨h.mode, h.lines, fun j => ?_⟩
  rw [amp_setAmp]; split
  · exact hx
  · exact h.amps j

theorem Amp.ok_iff (x : Amp) : x.ok = true ↔
    debounceOk x.candidate x.count (requiredCondition x.cfg) = true ∧ (x.state ≠ .disabled ∨ x.candidate = none) := by
  simp [Amp.ok]

theorem ampReading_inOrder {s : State} (h : InOrder sel s) (k : AmpNo) (ac : Code) (ov prot : Bool) :
    InOrder sel (ampReading id k ac ov prot s) := by
  have hR := inOrder_closed sel
  rw [ampReading_cases]
  split
  · exact h
  · next hd =>
    refine hR.placeAmpIfCounting _ k ?_
    split
    · exact h
    · refine hR.ampStepped _ (fun _ => id) k _ _ (setAmp_inOrder h k ((Amp.ok_iff _).mpr ⟨?_, .inl hd⟩))
      exact debounceOk_debounce _ _ _ _ _

/-! ### The delivery of a result -/

theorem placeConfirm_inOrder {s : State} (h : InOrder sel s) (x : Subject) : InOrder sel (placeConfirm x s) := by
  rw [placeConfirm_eq]; exact h.congr rfl rfl h.mode

theorem placeStale_inOrder {s : State} (h : InOrder sel s) (m : Measurement) : InOrder sel (placeStale m s) := by
  have hR := inOrder_closed sel
  unfold placeStale
  split <;> try exact h
  · split
    · exact placeConfirm_inOrder h _
    · exact h
  · split
    · exact placeConfirm_inOrder h _
    · exact h
  · exact hR.placeAmpIfCounting s _ h
  · exact hR.placeAmpIfCounting s _ h
  · split
    · exact placeVerify_id_inOrder h _
    · exact h
  · split
    · exact placeVerify_id_inOrder h _
    · exact h

theorem deliver_inOrder {s : State} (h : InOrder sel s) (m : Measurement) (r : Reading) : InOrder sel (deliver m r s) := by
  unfold deliver; split
  · unfold deliverLine; split
    · exact probeReading_inOrder h _ _ _ _
    · split
      · exact h
      · exact learnSample_inOrder h _ _ _ _
    · exact classificationReading_inOrder h _ _ _ _
    · exact classificationReading_inOrder h _ _ _ _
  · exact earthReading_inOrder h _ _ _
  · split
    · exact (inOrder_closed sel).takeVerify s (fun _ => id) _ _ _ _ h
    · exact ampReading_inOrder h _ _ _ _
  · exact h

/-- The block's part of a completion: the stale discard or the delivery (R36, R37). -/
def resultTaken (m : Measurement) (r : Reading) (s : State) : State :=
  if s.isStale m then placeStale m s else deliver m r s

/-- The round's part of a completion: the end of the round after its last slot (R30). -/
def slotCompleted (m : Measurement) (s : State) : State := if s.completesRound m then endRound s else s

/-- A completion part by part (R36). -/
theorem completeMeasurement_eq (m : Measurement) (r : Reading) (s : State) :
    completeMeasurement m r s = channelFree (slotCompleted m (reportMove id (resultTaken m r s))) := rfl

theorem SearchClosed.slotCompleted {R : State → State → Prop} (hR : SearchClosed R) (m : Measurement) (s : State) :
    R s (slotCompleted m s) := by
  unfold Machine.slotCompleted; split
  · exact hR.endRound s
  · exact hR.refl s

theorem completeMeasurement_inOrder {s : State} (h : InOrder sel s) (m : Measurement) (r : Reading) :
    InOrder sel (completeMeasurement m r s) := by
  have hR := inOrder_closed sel
  have taken : InOrder sel (resultTaken m r s) := by
    unfold resultTaken; split
    · exact placeStale_inOrder h m
    · exact deliver_inOrder h m r
  rw [completeMeasurement_eq]
  exact (inOrder_search sel).channelFree _ ((inOrder_search sel).slotCompleted m _ (hR.reportMove _ (fun _ => id) taken))

/-! ### Probes and timers -/

/-- The start of a probe but for the place in the verify queue (R11). -/
def probeStarted (n : LineNo) (s : State) : State :=
  let s := orderSelector n .test s
  s.setLine n
    { s.line n with
      state := .probing, cause := .noCause, zf := none, deviation := none, passCount := 0, timer := .idle,
      probeDue := false }

theorem startProbe_eq (arr : Arrive) (n : LineNo) (s : State) :
    startProbe arr n s = placeVerify arr (.line n) (probeStarted n s) := rfl

theorem probeStarted_onlyLine (s : State) (n : LineNo) : OnlyLine n s (probeStarted n s) :=
  (orderSelector_onlyLine s n _).trans (setLine_onlyLine _ n _)

theorem line_probeStarted (s : State) (n : LineNo) : ∃ r e a, (probeStarted n s).line n =
    { s.line n with
      selector := .test, relayLeft := r, epoch := e, learn := a, state := .probing, cause := .noCause, zf := none
      deviation := none, passCount := 0, timer := .idle, probeDue := false } := by
  obtain ⟨r, e, a, h⟩ := line_orderSelector_same s n .test
  exact ⟨r, e, a, by simp [probeStarted, h]⟩

/-- A probe starts in order from a line that is off its bus (R11). -/
theorem startProbe_inOrder {arr : Arrive} (ha : ∀ s, InOrder sel s → InOrder sel (arr s)) {s : State} (h : InOrder sel s)
    (n : LineNo) (hn : (s.line n).state ≠ .connected) : InOrder sel (startProbe arr n s) := by
  rw [startProbe_eq]
  refine placeVerify_inOrder ha (h.only (probeStarted_onlyLine s n) ?_) _
  obtain ⟨r, e, a, hr⟩ := line_probeStarted s n
  obtain ⟨candidate, count⟩ := (h.lines n).no_candidate hn
  rw [hr]
  exact (h.lines n).rested id candidate count (h.lines n).masked rfl rfl fun _ => rfl

/-- A line with probe due is off its bus (R11). -/
theorem Line.inOrder.off_of_due {l : Line} (h : l.inOrder sel) (hd : l.probeDue = true) : l.state ≠ .connected := by
  intro hc
  have rests := h.rests
  simp [Line.restsOk, hc, hd] at rests

theorem startDueProbes_inOrder {arr : Arrive} (ha : ∀ s, InOrder sel s → InOrder sel (arr s)) {s : State}
    (h : InOrder sel s) : InOrder sel (startDueProbes arr s) := by
  unfold startDueProbes
  induction allLines generalizing s with
  | nil => exact h
  | cons n l ih =>
    refine ih ?_
    dsimp only; split
    · next hd => exact startProbe_inOrder ha h n ((h.lines n).off_of_due hd)
    · exact h

/-- A line whose timer is not idle is ISOLATED (R9). -/
theorem Line.inOrder.isolated_of_timer {l : Line} (h : l.inOrder sel) (ht : l.timer ≠ .idle) : l.state = .isolated := by
  have rests := h.rests
  cases hs : l.state <;> simp_all [Line.restsOk]

theorem expireRetry_inOrder {s : State} (h : InOrder sel s) (n : LineNo) (ht : (s.line n).timer ≠ .idle) :
    InOrder sel (expireRetry n s) := by
  have isolated := (h.lines n).isolated_of_timer ht
  have stopped : InOrder sel (s.setLine n { s.line n with timer := .idle }) :=
    h.only (setLine_onlyLine s n _) (by rw [line_setLine_same]; exact (h.lines n).timer fun _ => rfl)
  unfold expireRetry; dsimp only
  split
  · refine stopped.only (setLine_onlyLine _ n _) ?_
    obtain ⟨candidate, count⟩ := (h.lines n).no_candidate (by rw [isolated]; decide)
    have ok := (Line.ok_iff _).mp (h.lines n).1
    rw [line_setLine_same, line_setLine_same]
    exact (h.lines n).rested id candidate count (h.lines n).masked ok.1 (by simp [Line.restsOk, isolated]) (h.lines n).2
  · exact startProbe_inOrder (fun _ => arrival_inOrder) stopped n (by rw [line_setLine_same, isolated]; decide)

theorem relayDone_inOrder {s : State} (h : InOrder sel s) (n : LineNo) : InOrder sel (relayDone n s) := by
  have rest : InOrder sel (s.setLine n { s.line n with relayLeft := none }) :=
    h.only (setLine_onlyLine s n _) (by rw [line_setLine_same]; exact h.lines n)
  have free := arrival_inOrder rest
  exact reportMove_inOrder (free.congr rfl rfl free.mode)

/-! ### Mode control -/

/-- The entry to SETTLING up to the start of the due probes: the mode, the readings forgotten and the timers (R150). -/
def settlingBegun (onStart : Bool) (s : State) : State :=
  let s := { s with mc.mode := .settling, mc.settleCount := 0 }
  let s := if onStart then s.mapLines Line.forget else s
  s.mapLines fun l => { l with timer := l.timer.resume }

/-- The due probes started, but during emergency (R10, R150). -/
def dueStarted (s : State) : State := if s.emergency then s else startDueProbes id s

/-- The entry to SETTLING part by part (R150). -/
theorem enterSettling_eq (onStart : Bool) (s : State) :
    enterSettling onStart s = arrival (startRound (grantAttempt id (dueStarted (settlingBegun onStart s)))) := rfl

theorem line_settlingBegun (onStart : Bool) (s : State) (n : LineNo) : (settlingBegun onStart s).line n =
    let l := if onStart then (s.line n).forget else s.line n
    { l with timer := l.timer.resume } := by
  unfold settlingBegun; dsimp only; rw [line_mapLines]
  split
  · rw [line_mapLines]; rfl
  · rfl

theorem enterSettling_inOrder {s : State} (hl : ∀ n, (s.line n).inOrder sel) (ha : ∀ k, (s.amp k).ok = true) (b : Bool) :
    InOrder sel (enterSettling b s) := by
  have hR := inOrder_closed sel
  have begun : InOrder sel (settlingBegun b s) := by
    refine ⟨by cases b <;> simp [settlingBegun, State.mapLines], fun n => ?_, ?_⟩
    · rw [line_settlingBegun]
      have forgot : (if b then (s.line n).forget else s.line n).inOrder sel := by
        unfold Line.forget; split
        · split <;> exact hl n
        · exact hl n
      exact forgot.timer resume_idle
    · cases b <;> exact ha
  have started : InOrder sel (dueStarted (settlingBegun b s)) := by
    unfold dueStarted; split
    · exact begun
    · exact startDueProbes_inOrder (fun _ => id) begun
  rw [enterSettling_eq]
  exact arrival_inOrder ((inOrder_search sel).chan _ _ (hR.grantAttempt _ (fun _ => id) started))

theorem stopProbe_inOrder {s : State} (h : InOrder sel s) (n : LineNo) : InOrder sel (stopProbe s n) := by
  unfold stopProbe; split
  · next hp =>
    have hc : (s.line n).state ≠ .connected := by rw [hp]; decide
    obtain ⟨candidate, count⟩ := (h.lines n).no_candidate hc
    obtain ⟨r, e, a, hr⟩ := line_endProbe s n .protective
    refine h.only (((onlyLine_closed n).endProbe s _).trans <| (withChan_onlyLine _ n _).trans <|
      ((onlyLine_closed n).endWaiting _ _).trans ((onlyLine_closed n).startRetry _)) ?_
    rw [startRetry_line, line_endWaiting, line_withdrawVerify, hr]
    exact (h.lines n).rested id candidate count (h.lines n).masked rfl rfl fun _ => rfl
  · exact h

theorem stopLines_inOrder {s : State} (h : InOrder sel s) : InOrder sel (stopLines s) := by
  have ended : InOrder sel (endLearn .learnAborted s) := by
    obtain ⟨a, e⟩ := line_endLearn_same s 0 .learnAborted
    exact h.only (endLearn_onlyLine s 0 _) (by rw [e]; exact (h.lines 0).learn a)
  have frozen := ended.mapLines (f := fun l => { l with timer := l.timer.freeze }) fun l hl => hl.timer freeze_idle
  unfold stopLines; dsimp only
  generalize (endLearn .learnAborted s).mapLines (fun l => { l with timer := l.timer.freeze }) = t at frozen ⊢
  induction allLines generalizing t with
  | nil => exact frozen
  | cons n l ih => exact ih _ (stopProbe_inOrder frozen n)

theorem enterStopping_inOrder {s : State} (h : InOrder sel s) : InOrder sel (enterStopping s) := by
  have hR := inOrder_closed sel
  have abandoned : InOrder sel (abandonRound { s with mc.mode := .stopping }) := h.congr rfl rfl (by simp [abandonRound])
  exact hR.checkStopped _ ((reportMove_inOrder (stopLines_inOrder abandoned)).table (signalAll_same _).table)

theorem endEmergency_inOrder {s : State} (h : InOrder sel s) : InOrder sel (endEmergency s) := by
  unfold endEmergency; dsimp only
  refine grantAttempt_inOrder ?_
  split
  · exact startDueProbes_inOrder (fun _ => arrival_inOrder) h
  · exact h

theorem endEmergencyIfOver_inOrder {s t : State} (h : InOrder sel t) : InOrder sel (endEmergencyIfOver s t) := by
  unfold endEmergencyIfOver; split
  · exact endEmergency_inOrder h
  · exact h

end Sys2Proof.Machine
end

section
/-! PROOFS. Every command keeps the line and amplifier records and the selectors in order (O57). -/

namespace Sys2Proof.Machine

variable {sel : Bool} {s t : State}

/-! ### The requests on one line -/

/-- A request on a line ends with the report of a move that it has made done (R7, log entry 17). -/
@[simp] theorem withReport_eq (s : State) (r : Reply) : withReport (s, r) = (reportMove arrival s, r) := rfl

/-- ISOLATE of a CONNECTED line part by part (R15). -/
theorem line_isolateConnected (s : State) (n : LineNo) : ∃ r e a, (isolateConnected n s).line n =
    { s.line n with
      selector := .off, relayLeft := r, epoch := e, learn := a, state := .isolated, cause := .command
      candidate := none, count := 0 } := by
  obtain ⟨r, e, a, h⟩ := line_orderSelector_same s n .off
  exact ⟨r, e, a, by simp [isolateConnected, dropDebounce, h]⟩

theorem isolateConnected_onlyLine (s : State) (n : LineNo) : OnlyLine n s (isolateConnected n s) :=
  (orderSelector_onlyLine s n _).trans <| (setLine_onlyLine _ n _).trans <| (withChan_onlyLine _ n _).trans
    (setLine_onlyLine _ n _)

theorem line_isolateProbing (s : State) (n : LineNo) : ∃ r e a, (isolateProbing n s).line n =
    { s.line n with
      selector := .off, relayLeft := r, epoch := e, learn := a, state := .isolated, cause := .command
      passCount := 0, timer := .idle, waiting := none } := by
  obtain ⟨r, e, a, h⟩ := line_endProbe s n .command
  exact ⟨r, e, a, by simp [isolateProbing, h]⟩

theorem isolateProbing_onlyLine (s : State) (n : LineNo) : OnlyLine n s (isolateProbing n s) :=
  ((onlyLine_closed n).endProbe s _).trans <| (withChan_onlyLine _ n _).trans <| (setLine_onlyLine _ n _).trans
    ((onlyLine_closed n).endWaiting _ _)

@[simp] theorem line_isolateOff (s : State) (n : LineNo) : (isolateOff n s).line n =
    { s.line n with state := .isolated, cause := .command, timer := .idle, probeDue := false, waiting := none } := by
  simp [isolateOff]

theorem isolateOff_onlyLine (s : State) (n : LineNo) : OnlyLine n s (isolateOff n s) :=
  (setLine_onlyLine s n _).trans ((onlyLine_closed n).endWaiting _ _)

theorem isolateLine_inOrder (h : InOrder sel s) (n : LineNo) : InOrder sel (isolateLine n s).1 := by
  have line := h.lines n
  have off : (s.line n).state = .isolated ∨ (s.line n).state = .locked → InOrder sel (isolateOff n s) := by
    intro hs
    have hc : (s.line n).state ≠ .connected := by rcases hs with e | e <;> rw [e] <;> decide
    obtain ⟨candidate, count⟩ := line.no_candidate hc
    refine h.only (isolateOff_onlyLine s n) ?_
    rw [line_isolateOff]
    refine line.rested id candidate count line.masked rfl rfl fun e => ?_
    rcases hs with hs | hs <;> simpa [restPosition, hs] using line.2 e
  unfold isolateLine; dsimp only
  split
  · obtain ⟨r, e, a, hr⟩ := line_isolateConnected s n
    refine reportMove_inOrder (h.only (isolateConnected_onlyLine s n) ?_)
    rw [hr]
    exact line.rested id rfl rfl line.masked rfl rfl fun _ => rfl
  · next hp =>
    obtain ⟨r, e, a, hr⟩ := line_isolateProbing s n
    obtain ⟨candidate, count⟩ := line.no_candidate (by rw [hp]; decide)
    refine reportMove_inOrder (h.only (isolateProbing_onlyLine s n) ?_)
    rw [hr]
    exact line.rested id candidate count line.masked rfl rfl fun _ => rfl
  · next hi =>
    split
    · exact h
    · exact off (.inl hi)
  · next hl => exact off (.inr hl)
  · exact h

theorem accept_inOrder (h : InOrder sel s) (p : Port) : InOrder sel (accept p s).1 := by
  rw [accept_eq]; exact h.congr rfl rfl h.mode

theorem restoreLine_inOrder (h : InOrder sel s) (p : Port) (tag : Byte) (n : LineNo) :
    InOrder sel (restoreLine p tag n s).1 := by
  have line := h.lines n
  have accepted : (s.line n).state = .isolated ∨ (s.line n).state = .locked →
      InOrder sel (reportMove arrival (accept p (acceptRestore p tag n s)).1) := by
    intro hs
    have hc : (s.line n).state ≠ .connected := by rcases hs with e | e <;> rw [e] <;> decide
    obtain ⟨candidate, count⟩ := line.no_candidate hc
    have ok := (Line.ok_iff _).mp line.1
    have rests : ∀ l : Line, l.state = (s.line n).state → l.timer = .idle → l.restsOk = true := by
      intro l hl ht
      rcases hs with e | e <;> simp [Line.restsOk, hl, e, ht]
    refine reportMove_inOrder (accept_inOrder ?_ p)
    have waiting : InOrder sel (s.setLine n
        { s.line n with retryCount := 0, timer := .idle, waiting := some (s.requester p tag .restore) }) := by
      refine h.only (setLine_onlyLine s n _) ?_
      rw [line_setLine_same]
      exact line.rested id candidate count line.masked ok.1 (rests _ rfl rfl) line.2
    unfold acceptRestore; dsimp only
    split
    · exact startProbe_inOrder (fun _ => arrival_inOrder) waiting n (by rw [line_setLine_same]; exact hc)
    · refine waiting.only (setLine_onlyLine _ n _) ?_
      rw [line_setLine_same, line_setLine_same]
      exact line.rested id candidate count line.masked ok.1 (rests _ rfl rfl) line.2
  unfold restoreLine; dsimp only
  split
  · next hi =>
    split
    · exact h
    · exact accepted (.inl hi)
  · next hl =>
    split
    · exact h
    · exact accepted (.inr hl)
  · exact h
  · exact h
  · exact h

theorem enableLine_inOrder (h : InOrder sel s) (n : LineNo) : InOrder sel (enableLine n s).1 := by
  unfold enableLine; split
  · exact h
  · next hd =>
    have brought : InOrder sel (s.setLine n (s.line n).brought) := by
      refine h.only (setLine_onlyLine s n _) ?_
      rw [line_setLine_same]
      refine (h.lines n).rested (fun _ => rfl) rfl rfl (Nat.zero_le _) rfl rfl fun e => ?_
      have pos := (h.lines n).2 e
      rw [not_not] at hd
      simpa [restPosition, hd, Line.brought] using pos
    dsimp only; split
    · exact brought.table (raise_same _ _ _)
    · exact brought

/-- DISABLE_LINE up to the clears of the fault records (R19). -/
def lineRemoved (n : LineNo) (s : State) : State :=
  let s := orderSelector n .off (endWaiting n .restoreAborted s)
  withdrawConfirm (.line n) (withdrawVerify (.line n) (s.setLine n (s.line n).removed))

theorem removeLine_eq (n : LineNo) (s : State) :
    removeLine n s = abortLearnOf n ((lineKeys n).foldl (fun s k => clear k none s) (lineRemoved n s)) := rfl

theorem foldClears_same (keys : List FaultKey) (s : State) :
    SameButTable s (keys.foldl (fun s k => clear k none s) s) :=
  foldl_sameButTable _ (fun s k => clear_same s k none) keys s

theorem lineRemoved_onlyLine (n : LineNo) (s : State) : OnlyLine n s (lineRemoved n s) :=
  ((onlyLine_closed n).endWaiting s _).trans <| (orderSelector_onlyLine _ n _).trans <| (setLine_onlyLine _ n _).trans
    (withChan_onlyLine _ n _)

theorem removeLine_onlyLine (n : LineNo) (s : State) : OnlyLine n s (removeLine n s) := by
  rw [removeLine_eq]
  exact (lineRemoved_onlyLine n s).trans <| ((foldClears_same _ _).onlyLine n).trans (abortLearnOf_onlyLine _ n)

/-- The record of a removed line: at OPEN, and with no RESTORE waiting (R19). -/
theorem line_lineRemoved (n : LineNo) (s : State) : ∃ r e a, (lineRemoved n s).line n =
    { (s.line n).removed with selector := .off, relayLeft := r, epoch := e, learn := a, waiting := none } := by
  obtain ⟨r, e, a, h⟩ := line_orderSelector_same (endWaiting n .restoreAborted s) n .off
  exact ⟨r, e, a, by simp [lineRemoved, h, Line.removed]⟩

theorem line_removeLine (n : LineNo) (s : State) : ∃ r e a, (removeLine n s).line n =
    { (s.line n).removed with selector := .off, relayLeft := r, epoch := e, learn := a, waiting := none } := by
  obtain ⟨r, e, a, h⟩ := line_lineRemoved n s
  rw [removeLine_eq]
  obtain e' | e' := line_abortLearnOf ((lineKeys n).foldl (fun s k => clear k none s) (lineRemoved n s)) n n
  · exact ⟨r, e, a, by rw [e', line_congr (foldClears_same _ _).lines, h]⟩
  · exact ⟨r, e, none, by rw [e', line_congr (foldClears_same _ _).lines, h]⟩

theorem disableLine_inOrder (h : InOrder sel s) (n : LineNo) : InOrder sel (disableLine n s).1 := by
  unfold disableLine; split
  · exact h
  · split
    · exact h
    · obtain ⟨r, e, a, hr⟩ := line_removeLine n s
      have removed : InOrder sel (removeLine n s) := by
        refine h.only (removeLine_onlyLine n s) ?_
        rw [hr]
        exact (h.lines n).rested (fun _ => rfl) rfl rfl (Nat.zero_le _) rfl rfl fun _ => rfl
      rw [withReport_eq]
      dsimp only
      exact reportMove_inOrder removed

/-! ### CONFIGURE_LINE (R1, R2) -/

/-- A changed reference written (R2.2). -/
def Line.rereferenced (l : Line) (old : LineConfig) : Line :=
  if l.cfg.zref = old.zref then l
  else { l with candidate := none, count := 0, deviation := deviationOf l.cfg.zref l.zf }

theorem configureReference_onlyLine (n : LineNo) (old : LineConfig) (s : State) :
    OnlyLine n s (configureReference n old s) := by
  have written := (setLine_onlyLine s n { s.line n with
    candidate := none, count := 0, deviation := deviationOf (s.line n).cfg.zref (s.line n).zf }).trans
      (withChan_onlyLine _ n { s.chan with confirm := s.chan.confirm.filter (· ≠ .line n) })
  unfold configureReference; dsimp only; split
  · exact .refl s n
  · split
    · exact written
    · split
      · exact written.trans ((raise_same _ _ _).onlyLine n)
      · exact written.trans ((clear_same _ _ _).onlyLine n)

@[simp] theorem line_configureReference (n : LineNo) (old : LineConfig) (s : State) :
    (configureReference n old s).line n = (s.line n).rereferenced old := by
  unfold configureReference Line.rereferenced; dsimp only; split
  · rfl
  · split
    · simp
    · split <;> simp

/-- Changed earth settings and counts written (R2.3, R68). -/
def Line.reearthed (l : Line) (old : LineConfig) : Line :=
  let l :=
    if l.cfg.earthCheck ≠ old.earthCheck ∨ l.cfg.threshold ≠ old.threshold ∨ l.cfg.raiseCount ≠ old.raiseCount
        ∨ l.cfg.clearCount ≠ old.clearCount then
      { l with earthCandidate := none, earthCount := 0 }
    else l
  if old.earthCheck ∧ !l.cfg.earthCheck then { l with earth := .normal, lastLc := none } else l

/-- CONFIGURE_LINE turns the earth check off (R68). -/
def earthTurnedOff (old new : LineConfig) : Bool := old.earthCheck && !new.earthCheck

/-- The earth part of CONFIGURE_LINE: the fields written, and EARTH_LEAK cleared where the check is turned off (R2.3, R66). -/
theorem configureEarth_eq (n : LineNo) (old : LineConfig) (s : State) : configureEarth n old s =
    (let u := s.setLine n ((s.line n).reearthed old)
      if earthTurnedOff old (s.line n).cfg then clear (.earthLeak n) none u else u) := by
  have off : (old.earthCheck = true ∧ (!(s.line n).cfg.earthCheck) = true) ↔ earthTurnedOff old (s.line n).cfg = true := by
    simp [earthTurnedOff]
  unfold configureEarth Line.reearthed; dsimp only
  by_cases hc : (s.line n).cfg.earthCheck ≠ old.earthCheck ∨ (s.line n).cfg.threshold ≠ old.threshold ∨
      (s.line n).cfg.raiseCount ≠ old.raiseCount ∨ (s.line n).cfg.clearCount ≠ old.clearCount
  · by_cases ho : earthTurnedOff old (s.line n).cfg = true <;> simp only [if_pos hc, off, ho] <;> simp
  · by_cases ho : earthTurnedOff old (s.line n).cfg = true <;> simp only [if_neg hc, off, ho] <;> simp

theorem configureEarth_onlyLine (n : LineNo) (old : LineConfig) (s : State) : OnlyLine n s (configureEarth n old s) := by
  rw [configureEarth_eq]; dsimp only; split
  · exact (setLine_onlyLine s n _).trans ((clear_same _ _ _).onlyLine n)
  · exact setLine_onlyLine s n _

@[simp] theorem line_configureEarth (n : LineNo) (old : LineConfig) (s : State) :
    (configureEarth n old s).line n = (s.line n).reearthed old := by
  rw [configureEarth_eq]; dsimp only; split <;> simp

/-- The effects of CONFIGURE_LINE on the retry timer of a line isolated for protection (R2.4). -/
def Line.reretried (l : Line) (runs : Bool) : Line :=
  if l.state ≠ .isolated ∨ l.cause ≠ .protective then l
  else if l.cfg.retryLimit ≤ l.retryCount then { l with state := .locked, cause := .lockout, timer := .idle }
  else if !l.cfg.autoRetry then { l with timer := .idle }
  else if l.timer = .idle then
    { l with timer := if runs then .running (l.cfg.retryDelay * 1000) else .frozen (l.cfg.retryDelay * 1000) }
  else l

theorem configureRetry_onlyLine (n : LineNo) (s : State) : OnlyLine n s (configureRetry n s) := by
  unfold configureRetry; dsimp only
  split
  · exact .refl s n
  · split
    · exact setLine_onlyLine s n _
    · split
      · exact setLine_onlyLine s n _
      · split
        · exact setLine_onlyLine s n _
        · exact .refl s n

@[simp] theorem line_configureRetry (n : LineNo) (s : State) :
    (configureRetry n s).line n = (s.line n).reretried s.runs := by
  unfold configureRetry Line.reretried; dsimp only
  split
  · rfl
  · split
    · simp
    · split
      · simp
      · split
        · simp [State.startedTimer, Line.fullDelay]
        · rfl

/-- The record that an accepted CONFIGURE_LINE leaves (R2). -/
def Line.configured (l : Line) (c : LineConfig) (current : AmpNo) (runs : Bool) : Line :=
  ((({ l with cfg := c, current := current } : Line).rereferenced l.cfg).reearthed l.cfg).reretried runs

theorem applyLineConfig_onlyLine (n : LineNo) (c : LineConfig) (s : State) : OnlyLine n s (applyLineConfig n c s) :=
  (setLine_onlyLine s n _).trans <| (configureReference_onlyLine n _ _).trans <|
    (configureEarth_onlyLine n _ _).trans (configureRetry_onlyLine n _)

@[simp] theorem line_applyLineConfig (n : LineNo) (c : LineConfig) (s : State) :
    (applyLineConfig n c s).line n = (s.line n).configured c (s.amp c.home).carrying s.runs := by
  unfold applyLineConfig Line.configured; dsimp only
  rw [line_configureRetry, line_configureEarth, line_configureReference, line_setLine_same,
    ((setLine_onlyLine s n _).trans <| (configureReference_onlyLine n (s.line n).cfg _).trans
      (configureEarth_onlyLine n (s.line n).cfg _)).work.runs]

/-- A changed reference touches the debounce and the deviation alone (R2.2). -/
theorem rereferenced_cases (l : Line) (old : LineConfig) :
    (l.cfg.zref = old.zref ∧ l.rereferenced old = l) ∨
    (l.cfg.zref ≠ old.zref ∧ l.rereferenced old =
      { l with candidate := none, count := 0, deviation := deviationOf l.cfg.zref l.zf }) := by
  unfold Line.rereferenced; split
  · next h => exact .inl ⟨h, rfl⟩
  · next h => exact .inr ⟨h, rfl⟩

/-- Changed earth settings touch the earth fields alone, and keep an earth debounce only under the counts it had
(R2.3, R68). -/
theorem reearthed_cases (l : Line) (old : LineConfig) : ∃ candidate count state lc,
    l.reearthed old = { l with earthCandidate := candidate, earthCount := count, earth := state, lastLc := lc } ∧
    ((candidate = none ∧ count = 0) ∨
      (candidate = l.earthCandidate ∧ count = l.earthCount ∧ l.cfg.raiseCount = old.raiseCount ∧
        l.cfg.clearCount = old.clearCount)) := by
  unfold Line.reearthed; dsimp only
  by_cases hc : l.cfg.earthCheck ≠ old.earthCheck ∨ l.cfg.threshold ≠ old.threshold ∨
      l.cfg.raiseCount ≠ old.raiseCount ∨ l.cfg.clearCount ≠ old.clearCount
  · rw [if_pos hc]
    split
    · exact ⟨none, 0, .normal, none, rfl, .inl ⟨rfl, rfl⟩⟩
    · exact ⟨none, 0, l.earth, l.lastLc, rfl, .inl ⟨rfl, rfl⟩⟩
  · rw [if_neg hc]
    simp only [ne_eq, not_or, not_not] at hc
    obtain ⟨-, -, raise, clear⟩ := hc
    split
    · exact ⟨l.earthCandidate, l.earthCount, .normal, none, rfl, .inr ⟨rfl, rfl, raise, clear⟩⟩
    · exact ⟨l.earthCandidate, l.earthCount, l.earth, l.lastLc, rfl, .inr ⟨rfl, rfl, raise, clear⟩⟩

/-- The required counts of an earth state are the raise and the clear count (R65). -/
theorem requiredEarth_congr {c d : LineConfig} (hr : c.raiseCount = d.raiseCount) (hc : c.clearCount = d.clearCount) :
    requiredEarth c = requiredEarth d := by
  funext x; cases x <;> simp [requiredEarth, hr, hc]

theorem reretried_inOrder {l : Line} (h : l.inOrder sel) (runs : Bool) : (l.reretried runs).inOrder sel := by
  unfold Line.reretried; split
  · exact h
  · next hs =>
    simp only [ne_eq, not_or, not_not] at hs
    obtain ⟨isolated, protective⟩ := hs
    obtain ⟨candidate, count⟩ := h.no_candidate (by rw [isolated]; decide)
    have ok := (Line.ok_iff l).mp h.1
    have rests : ∀ u : RetryTimer, ({ l with timer := u } : Line).restsOk = true := fun u => by
      simp [Line.restsOk, isolated]
    split
    · exact h.rested id candidate count h.masked rfl rfl fun e => by simpa [restPosition, isolated] using h.2 e
    · split
      · exact h.rested id candidate count h.masked ok.1 (rests _) h.2
      · split
        · exact h.rested id candidate count h.masked ok.1 (rests _) h.2
        · exact h

/-- A line off its bus may take any configuration (R1, R2). -/
theorem configured_inOrder {l : Line} (h : l.inOrder sel) (hc : l.state ≠ .connected) (c : LineConfig) (current : AmpNo)
    (runs : Bool) : (l.configured c current runs).inOrder sel := by
  obtain ⟨candidate, count⟩ := h.no_candidate hc
  obtain ⟨cause, -, -, -, rests, masked⟩ := (Line.ok_iff l).mp h.1
  have pos : sel = true → l.selector = restPosition .active { l with current := current } := fun e => by
    rw [h.2 e]; cases hs : l.state <;> simp_all [restPosition]
  refine reretried_inOrder ?_ runs
  obtain ⟨d, hm⟩ : ∃ d, ({ l with cfg := c, current := current } : Line).rereferenced l.cfg =
      { l with cfg := c, current := current, deviation := d } := by
    obtain ⟨-, e⟩ | ⟨-, e⟩ := rereferenced_cases { l with cfg := c, current := current } l.cfg
    · exact ⟨l.deviation, e⟩
    · exact ⟨deviationOf c.zref l.zf, by rw [e]; simp [candidate, count]⟩
  obtain ⟨ec, en, es, lc, he, hearth⟩ := reearthed_cases
    (({ l with cfg := c, current := current } : Line).rereferenced l.cfg) l.cfg
  rw [he, hm]
  rw [hm] at hearth
  obtain ⟨rfl, rfl⟩ | ⟨rfl, rfl, raise, clear⟩ := hearth
  · refine h.rested (fun _ => rfl) candidate count masked cause ?_ pos
    cases hs : l.state <;> simp_all [Line.restsOk]
  · refine h.rested (fun earth => ?_) candidate count masked cause rests pos
    rw [← requiredEarth_congr raise clear] at earth
    exact earth

theorem configureLine_inOrder (h : InOrder sel s) (payload : List Byte) (n : LineNo) :
    InOrder sel (configureLine payload n s).1 := by
  unfold configureLine; dsimp only
  split
  · exact h
  · split
    · exact h
    · next hs =>
      split
      · exact h
      · split
        · exact h
        · refine h.only (applyLineConfig_onlyLine n _ s) ?_
          rw [line_applyLineConfig]
          exact configured_inOrder (h.lines n) (fun hc => hs (.inl hc)) _ _ _

theorem learnLine_inOrder (h : InOrder sel s) (p : Port) (tag : Byte) (n : LineNo) :
    InOrder sel (learnLine p tag n s).1 := by
  unfold learnLine
  split; · exact h
  split; · exact h
  split; · exact h
  split; · exact h
  refine accept_inOrder (arrival_inOrder ?_) p
  have learning : InOrder sel (s.setLine n { s.line n with learn := some ⟨0, 0⟩ }) :=
    h.only (setLine_onlyLine s n _) (by rw [line_setLine_same]; exact (h.lines n).learn _)
  exact learning.congr rfl rfl learning.mode

theorem onLine_inOrder (h : InOrder sel s) (payload : List Byte) {act : LineNo → State → State × Reply}
    (ha : ∀ n, InOrder sel (act n s).1) : InOrder sel (onLine payload act s).1 := by
  unfold onLine; split
  · exact h
  · exact ha _

/-! ### The requests on one amplifier -/

theorem onAmp_inOrder (h : InOrder sel s) (payload : List Byte) {act : AmpNo → State → State × Reply}
    (ha : ∀ k, InOrder sel (act k s).1) : InOrder sel (onAmp payload act s).1 := by
  unfold onAmp; split
  · exact h
  · exact ha _

theorem joinManual_inOrder (h : InOrder sel s) (kind : CoKind) (d : AmpNo) (r : Requester) :
    InOrder sel (joinManual kind d r s) := grantAttempt_inOrder (h.congr rfl rfl h.mode)

theorem coverAmp_inOrder (h : InOrder sel s) (p : Port) (tag : Byte) (d : AmpNo) : InOrder sel (coverAmp p tag d s).1 := by
  unfold coverAmp
  split; · exact h
  split; · exact h
  split; · exact h
  split; · exact h
  split; · exact h
  exact accept_inOrder (joinManual_inOrder h _ _ _) p

theorem returnAmp_inOrder (h : InOrder sel s) (p : Port) (tag : Byte) (d : AmpNo) :
    InOrder sel (returnAmp p tag d s).1 := by
  unfold returnAmp
  split; · exact h
  split; · exact h
  split; · exact h
  split; · exact h
  exact accept_inOrder (joinManual_inOrder h _ _ _) p

/-- ENABLE_AMP up to the grant attempt (R83). -/
def ampBrought (k : AmpNo) (s : State) : State :=
  s.setAmp k
    { s.amp k with
      cfg := { (s.amp k).cfg with enabled := true }
      state := match (s.amp k).cfg.role with | .duty => .healthy | .standby => .free
      stamp := (s.amp k).stamp + 1
      condition := .normal, candidate := none, count := 0, lastAc := none, lastProt := none, carrying := k }

@[simp] theorem setAmp_setAmp (s : State) (k : AmpNo) (x y : Amp) : (s.setAmp k x).setAmp k y = s.setAmp k y := by
  simp [State.setAmp]

/-- ENABLE_AMP of a DISABLED amplifier, followed by a grant attempt where it is a standby (R83, R91). -/
theorem bringAmp_eq (s : State) (k : AmpNo) (h : (s.amp k).state = .disabled) : bringAmp k s =
    match (s.amp k).cfg.role with
    | .duty => ampBrought k s
    | .standby => grantAttempt arrival (ampBrought k s) := by
  cases hr : (s.amp k).cfg.role <;> simp [bringAmp, setAmpState, ampBrought, h, hr]

theorem enableAmp_inOrder (h : InOrder sel s) (k : AmpNo) : InOrder sel (enableAmp k s).1 := by
  unfold enableAmp; split
  · exact h
  · next hd =>
    rw [not_not] at hd
    have brought : InOrder sel (ampBrought k s) :=
      setAmp_inOrder h k ((Amp.ok_iff _).mpr ⟨rfl, .inr rfl⟩)
    dsimp only
    rw [bringAmp_eq s k hd]
    split
    · exact brought
    · exact grantAttempt_inOrder brought

/-- DISABLE_AMP up to the release of the covering standby (R84). -/
def ampRemoved (k : AmpNo) (s : State) : State :=
  let s := s.setAmp k
    { s.amp k with
      cfg := { (s.amp k).cfg with enabled := false }, state := .disabled, stamp := (s.amp k).stamp + 1
      condition := .normal, candidate := none, count := 0, lastAc := none, lastProt := none }
  [FaultKey.ampFail k, .noCover k, .storeFault (.amp k)].foldl (fun s key => clear key none s)
    (withdrawConfirm (.amp k) s)

theorem removeAmp_eq (s : State) (k : AmpNo) (h : (s.amp k).state ≠ .disabled) : removeAmp k s =
    match (s.amp k).coveringStandby with
    | some x =>
      if (s.amp k).state = .covered ∨ (s.amp k).state = .relieved then releaseStandby k x (ampRemoved k s)
      else ampRemoved k s
    | none => ampRemoved k s := by
  cases hc : (s.amp k).coveringStandby <;>
    simp only [removeAmp, setAmpState, h, hc, ↓reduceIte, amp_setAmp_same, setAmp_setAmp, ampRemoved]

theorem takeLinesHome_inOrder (h : InOrder sel s) (x d : AmpNo) : InOrder sel (takeLinesHome x d s) := by
  unfold takeLinesHome
  generalize allLines.filter (fun n => (s.line n).current = x) = l
  induction l generalizing s with
  | nil => exact h
  | cons n l ih => exact ih (moveLine_inOrder h d n)

theorem releaseStandby_inOrder (h : InOrder sel s) (k x : AmpNo) : InOrder sel (releaseStandby k x s) := by
  have hR := inOrder_closed sel
  have home := hR.dropCover _ k (hR.setCarrying _ k k (takeLinesHome_inOrder h x k))
  exact reportMove_inOrder (grantAttempt_inOrder (hR.dropCovered _ x (hR.setAmpState _ x (by decide) home)))

theorem disableAmp_inOrder (h : InOrder sel s) (k : AmpNo) : InOrder sel (disableAmp k s).1 := by
  unfold disableAmp
  split; · exact h
  split; · exact h
  next hd =>
  split; · exact h
  have removed : InOrder sel (ampRemoved k s) := by
    have written := setAmp_inOrder h k (x := { s.amp k with
      cfg := { (s.amp k).cfg with enabled := false }, state := .disabled, stamp := (s.amp k).stamp + 1
      condition := .normal, candidate := none, count := 0, lastAc := none, lastProt := none })
      ((Amp.ok_iff _).mpr ⟨rfl, .inr rfl⟩)
    exact ((inOrder_search sel).chan _ _ written).table (foldClears_same _ _)
  dsimp only
  rw [removeAmp_eq s k hd]
  split
  · split
    · exact releaseStandby_inOrder removed _ _
    · exact removed
  · exact removed

theorem configureAmp_inOrder (h : InOrder sel s) (payload : List Byte) (k : AmpNo) :
    InOrder sel (configureAmp payload k s).1 := by
  unfold configureAmp; dsimp only
  split; · exact h
  split; · exact h
  next hd =>
  split; · exact h
  rw [not_not] at hd
  obtain ⟨debounce, candidate⟩ := (Amp.ok_iff _).mp (h.amps k)
  have none := candidate.resolve_left (not_not.mpr hd)
  rw [none] at debounce
  refine setAmp_inOrder h k ((Amp.ok_iff _).mpr ⟨?_, .inr none⟩)
  rw [none]; exact debounce

end Sys2Proof.Machine
end

section
/-! PROOFS. The records kept by the notification requests, by LOADING, by the events, and so by every step (O57). -/

namespace Sys2Proof.Machine

variable {sel : Bool} {s t : State}

/-! ### The notification requests -/

theorem setPort_same (s : State) (p : Port) (x : PortState) : SameButTable s (s.setPort p x) :=
  ⟨rfl, rfl, rfl, rfl, rfl, rfl, rfl, rfl⟩

theorem startListening_same (s : State) (p : Port) : SameButTable s (startListening p s) :=
  (setPort_same s p _).trans ((withFaults_same _ _).trans (signalIfEligible_same _ p).table)

theorem stopListening_same (s : State) (p : Port) : SameButTable s (stopListening p s) :=
  (setPort_same s p _).trans ((dropAllMarks_same _ p).trans (setPort_same _ p _))

theorem fetchRecord_same (s : State) (p : Port) (c : ClassNo) (r : FaultRecord) : SameButTable s (fetchRecord p c r s) := by
  have entered : ∀ t : State, SameButTable t
      (if (t.port p).autoDone then t else t.setPort p { t.port p with inService := (t.port p).inService.put c true }) := by
    intro t; split
    · exact .refl t
    · exact setPort_same t p _
  have latched : ∀ t : State, SameButTable t (if t.anyEligible p then t else t.setLatch p false) := by
    intro t; split
    · exact .refl t
    · exact setPort_same t p _
  exact (dropMark_same s r.key p).trans ((entered _).trans ((checkRemoval_same _ r.key).trans (latched _)))

theorem finishClass_same (s : State) (p : Port) (c : ClassNo) : SameButTable s (finishClass p c s) :=
  (setPort_same s p _).trans (signalIfEligible_same _ p).table

theorem resetPortSide_same (s : State) (p : Port) : SameButTable s (resetPortSide p s) := by
  have stopped : SameButTable s (if (s.port p).listening then stopListening p s else s) := by
    split
    · exact stopListening_same s p
    · exact .refl s
  exact stopped.trans (setPort_same _ p _)

theorem setFlag_inOrder (h : InOrder sel s) (p : Port) (v : Bool) : InOrder sel (setFlag p v s) := by
  cases p <;> exact h.congr rfl rfl h.mode

/-! ### Taking a command -/

/-- The line and amplifier records in order (O57), and with `sel` the selectors. -/
def Kept (sel : Bool) (s : State) : Prop := s.recordsOk = true ∧ (sel = true → s.selectorsOk = true)

theorem mem_allLines (n : LineNo) : n ∈ allLines := by revert n; decide

theorem mem_allAmps (k : AmpNo) : k ∈ allAmps := by revert k; decide

/-- What the invariant says of each record. -/
theorem kept_iff : Kept sel s ↔
    (∀ n, (s.line n).ok = true ∧ (s.mc.mode = .loading → (s.line n).state = .disabled) ∧
      (sel = true → (s.line n).selector = restPosition s.mc.mode (s.line n))) ∧
    ∀ k, (s.amp k).ok = true ∧ (s.mc.mode = .loading → (s.amp k).state = .disabled) := by
  have lines : (∀ P : LineNo → Prop, (∀ n ∈ allLines, P n) ↔ ∀ n, P n) := fun P =>
    ⟨fun h n => h n (mem_allLines n), fun h n _ => h n⟩
  have amps : (∀ P : AmpNo → Prop, (∀ k ∈ allAmps, P k) ↔ ∀ k, P k) := fun P =>
    ⟨fun h k => h k (mem_allAmps k), fun h k _ => h k⟩
  simp only [Kept, State.recordsOk, State.selectorsOk, Bool.and_eq_true, List.all_eq_true, lines, amps, Bool.or_eq_true,
    decide_eq_true_eq, ne_eq, ← imp_iff_not_or]
  constructor
  · rintro ⟨⟨hl, ha⟩, hs⟩
    exact ⟨fun n => ⟨(hl n).1, (hl n).2, fun e => hs e n⟩, ha⟩
  · rintro ⟨hl, ha⟩
    exact ⟨⟨fun n => ⟨(hl n).1, (hl n).2.1⟩, ha⟩, fun e n => (hl n).2.2 e⟩

/-- Outside LOADING the invariant is that every record is in order. -/
theorem kept_iff_inOrder (hm : s.mc.mode ≠ .loading) : Kept sel s ↔ InOrder sel s := by
  rw [kept_iff]
  constructor
  · rintro ⟨hl, ha⟩
    exact ⟨hm, fun n => ⟨(hl n).1, fun e => by rw [(hl n).2.2 e, restPosition_of_ne hm]⟩, fun k => (ha k).1⟩
  · intro h
    exact ⟨fun n => ⟨(h.lines n).1, fun e => absurd e hm, fun e => by rw [(h.lines n).2 e, restPosition_of_ne hm]⟩,
      fun k => ⟨h.amps k, fun e => absurd e hm⟩⟩

theorem InOrder.kept (h : InOrder sel s) : Kept sel s := (kept_iff_inOrder h.mode).mpr h

theorem Kept.congr (h : Kept sel s) (hl : t.lines = s.lines) (ha : t.amps = s.amps) (hm : t.mc.mode = s.mc.mode) :
    Kept sel t := by
  rw [kept_iff] at h ⊢
  exact ⟨fun n => by rw [line_congr hl, hm]; exact h.1 n, fun k => by rw [amp_congr ha, hm]; exact h.2 k⟩

theorem Kept.table (h : Kept sel s) (ht : SameButTable s t) : Kept sel t := h.congr ht.lines ht.amps (by rw [ht.mc])

/-- A request whose block keeps the records in order outside LOADING keeps them. -/
theorem takeRequest_kept {q : Request} {p : Port} {payload : List Byte} {act : State → State × Reply}
    (hq : q.inLoading = false) (ha : InOrder sel s → InOrder sel (act s).1)
    (ht : takeRequest q p payload act s = .next t) (h : Kept sel s) : Kept sel t := by
  obtain ⟨-, e⟩ | ⟨c, -, -, e⟩ | ⟨-, hr, e⟩ := takeRequest_cases s q p payload act <;> rw [e] at ht <;> cases ht
  · exact h
  · exact h.congr rfl rfl rfl
  · have loading : s.mc.mode ≠ .loading := by
      obtain ⟨-, -, -, hl, -⟩ := (portRefusal_none s q p payload).mp hr
      intro hm
      rw [hq] at hl
      exact absurd (hl hm) (by simp)
    exact ((ha ((kept_iff_inOrder loading).mp h)).answer p _).kept

/-- A request that only reads keeps the records in LOADING too. -/
theorem readRequest_kept {q : Request} {p : Port} {payload : List Byte} {act : State → State × Reply}
    (ha : (act s).1 = s) (ht : takeRequest q p payload act s = .next t) (h : Kept sel s) : Kept sel t := by
  obtain ⟨-, e⟩ | ⟨c, -, -, e⟩ | ⟨-, hr, e⟩ := takeRequest_cases s q p payload act <;> rw [e] at ht <;> cases ht
  · exact h
  · exact h.congr rfl rfl rfl
  · rw [ha]; exact h.congr rfl rfl rfl

theorem takeEvent_kept {act : State → State} (ha : Kept sel (act s)) (ht : takeEvent act s = .next t) (h : Kept sel s) :
    Kept sel t := by
  obtain ⟨-, e⟩ | ⟨-, e⟩ := takeEvent_cases s act <;> rw [e] at ht <;> cases ht
  · exact h
  · exact ha

/-! ### LOADING -/

/-- A record of LOADING judged: its subject's configuration written, its condition set (R165). -/
def recordSettled (k : RecordNo) (b : List Byte) (cause : LoadCause) (s : State) : State :=
  if cause = .noCause then setStatus k ⟨.valid, .noCause⟩ (loadFields k b s)
  else setStatus k ⟨.defaulted, cause⟩ (loadDefaults k s)

theorem settleRecord_eq (k : RecordNo) (b : List Byte) (cause : LoadCause) (s : State) :
    settleRecord k b cause s = nextRead (recordSettled k b cause s) := rfl

/-- A DISABLED line may take any configuration while it is read (R165). -/
theorem setLine_loading (h : Kept sel s) (hm : s.mc.mode = .loading) (n : LineNo) (c : LineConfig) :
    Kept sel (s.setLine n { s.line n with cfg := c }) := by
  rw [kept_iff] at h ⊢
  refine ⟨fun m => ?_, h.2⟩
  rw [line_setLine]
  split
  · next e =>
    subst e
    obtain ⟨ok, disabled, pos⟩ := h.1 m
    have hd := disabled hm
    refine ⟨?_, fun _ => hd, fun e => by simpa [restPosition, hm] using pos e⟩
    obtain ⟨cause, debounce, earth, candidate, rests, masked⟩ := (Line.ok_iff _).mp ok
    have none := candidate.resolve_left (by rw [hd]; decide)
    have earthNone : (s.line m).earthCandidate = .none := by
      simp only [Line.restsOk, hd, Bool.and_eq_true, Option.isNone_iff_eq_none] at rests
      exact rests.2
    rw [none] at debounce
    rw [earthNone] at earth
    exact (Line.ok_iff _).mpr ⟨cause, by rw [none]; exact debounce, by rw [earthNone]; exact earth, candidate, rests, masked⟩
  · exact h.1 m

theorem setAmp_loading (h : Kept sel s) (hm : s.mc.mode = .loading) (k : AmpNo) (c : AmpConfig) :
    Kept sel (s.setAmp k { s.amp k with cfg := c }) := by
  rw [kept_iff] at h ⊢
  refine ⟨h.1, fun j => ?_⟩
  rw [amp_setAmp]
  split
  · next e =>
    subst e
    obtain ⟨ok, disabled⟩ := h.2 j
    have hd := disabled hm
    refine ⟨?_, fun _ => hd⟩
    obtain ⟨debounce, candidate⟩ := (Amp.ok_iff _).mp ok
    have none := candidate.resolve_left (not_not.mpr hd)
    rw [none] at debounce
    exact (Amp.ok_iff _).mpr ⟨by rw [none]; exact debounce, .inr none⟩
  · exact h.2 j

theorem recordSettled_kept (h : Kept sel s) (hm : s.mc.mode = .loading) (k : RecordNo) (b : List Byte) (cause : LoadCause) :
    Kept sel (recordSettled k b cause s) := by
  have fields : Kept sel (loadFields k b s) := by
    unfold loadFields; split
    · exact setLine_loading h hm _ _
    · exact setAmp_loading h hm _ _
    · exact h.congr rfl rfl rfl
  have defaults : Kept sel (loadDefaults k s) := by
    unfold loadDefaults; split
    · exact setLine_loading h hm _ _
    · exact setAmp_loading h hm _ _
    · exact h.congr rfl rfl rfl
  unfold recordSettled; split
  · exact fields.congr rfl rfl rfl
  · exact defaults.congr rfl rfl rfl

theorem recordSettled_mode (k : RecordNo) (b : List Byte) (cause : LoadCause) (s : State) :
    (recordSettled k b cause s).mc.mode = s.mc.mode := by
  unfold recordSettled loadFields loadDefaults setStatus
  split <;> dsimp only <;> split <;> rfl

/-- A fold of work on one line after another leaves every line of the list as its own work leaves it, but for the learn
accumulator. -/
theorem foldl_onlyLine {f : State → LineNo → State} (hf : ∀ s n, OnlyLine n s (f s n)) {P Q : Line → Prop}
    (hP : ∀ l a, P l → P { l with learn := a }) (hQ : ∀ l a, Q l → Q { l with learn := a })
    (step : ∀ s n, P (s.line n) → Q ((f s n).line n)) (l : List LineNo) (hl : l.Nodup) (s : State)
    (h : ∀ n ∈ l, P (s.line n)) (n : LineNo) : (n ∈ l → Q ((l.foldl f s).line n)) ∧
      (n ∉ l → ∃ a, (l.foldl f s).line n = { s.line n with learn := a }) := by
  induction l generalizing s with
  | nil => exact ⟨fun hn => absurd hn (by simp), fun _ => ⟨(s.line n).learn, rfl⟩⟩
  | cons m l ih =>
    obtain ⟨hm, nodup⟩ := List.nodup_cons.mp hl
    have rest : ∀ n ∈ l, P ((f s m).line n) := by
      intro n hn
      obtain ⟨a, e⟩ := (hf s m).others n fun e => hm (e ▸ hn)
      rw [e]; exact hP _ a (h n (by simp [hn]))
    obtain ⟨inside, outside⟩ := ih nodup (f s m) rest
    constructor
    · intro hn
      by_cases hnl : n ∈ l
      · exact inside hnl
      · obtain rfl : n = m := (List.mem_cons.mp hn).resolve_right hnl
        obtain ⟨a, e⟩ := outside hnl
        rw [List.foldl_cons, e]
        exact hQ _ a (step s n (h n (by simp)))
    · intro hn
      obtain ⟨hne, hnl⟩ := not_or.mp (fun e => hn (List.mem_cons.mpr e))
      obtain ⟨a, e⟩ := outside hnl
      obtain ⟨b, e'⟩ := (hf s m).others n hne
      exact ⟨a, by rw [List.foldl_cons, e, e']⟩

theorem nodup_allLines : allLines.Nodup := by decide

theorem establishLine_onlyLine (s : State) (n : LineNo) : OnlyLine n s (establishLine s n) := by
  unfold establishLine; dsimp only; split
  · exact (setLine_onlyLine s n _).trans <| (setLine_onlyLine _ n _).trans (orderSelector_onlyLine _ n _)
  · exact (setLine_onlyLine s n _).trans (orderSelector_onlyLine _ n _)

theorem establishLine_work (s : State) (n : LineNo) : LineWork s (establishLine s n) := (establishLine_onlyLine s n).work

/-- A line established at the end of LOADING (R3): on the bus of its home where it ends enabled, at OPEN otherwise. -/
theorem line_establishLine (s : State) (n : LineNo) : ∃ r e a, (establishLine s n).line n =
    let c := s.settledConfig n
    { s.line n with
      cfg := c, current := c.home, relayLeft := r, epoch := e, learn := a
      selector := if c.enabled then .bus c.home else .off
      state := if c.enabled then .connected else (s.line n).state } := by
  unfold establishLine; dsimp only; split
  · next he =>
    obtain ⟨r, e, a, h⟩ := line_orderSelector_same ((s.setLine n
      { s.line n with cfg := s.settledConfig n, current := (s.settledConfig n).home }).setLine n
        { (s.setLine n { s.line n with cfg := s.settledConfig n, current := (s.settledConfig n).home }).line n with
          state := .connected }) n (.bus (s.settledConfig n).home)
    exact ⟨r, e, a, by rw [h]; simp⟩
  · next he =>
    obtain ⟨r, e, a, h⟩ := line_orderSelector_same (s.setLine n
      { s.line n with cfg := s.settledConfig n, current := (s.settledConfig n).home }) n .off
    exact ⟨r, e, a, by rw [h]; simp⟩

/-- A DISABLED line record in order is in order wherever it is established (R3). -/
theorem established_inOrder {l : Line} (ok : l.ok = true) (disabled : l.state = .disabled) (c : LineConfig)
    (r : Option Nat) (e : Byte) (a : Option LearnAcc) :
    ({ l with
      cfg := c, current := c.home, relayLeft := r, epoch := e, learn := a
      selector := if c.enabled then .bus c.home else .off
      state := if c.enabled then .connected else l.state } : Line).inOrder sel := by
  obtain ⟨cause, debounce, earth, candidate, rests, masked⟩ := (Line.ok_iff l).mp ok
  have none := candidate.resolve_left (by rw [disabled]; decide)
  simp only [Line.restsOk, disabled, Bool.and_eq_true, Option.isNone_iff_eq_none, decide_eq_true_eq,
    Bool.not_eq_true'] at rests
  obtain ⟨⟨⟨timer, due⟩, waiting⟩, earthNone⟩ := rests
  rw [none] at debounce
  rw [earthNone] at earth
  refine ⟨(Line.ok_iff _).mpr ⟨?_, by rw [none]; exact debounce, by rw [earthNone]; exact earth, .inr none, ?_, masked⟩,
    fun _ => ?_⟩
  · simp only [Line.causeOk, disabled] at cause ⊢
    cases c.enabled <;> exact cause
  · cases c.enabled <;> simp [Line.restsOk, disabled, timer, due, waiting, earthNone]
  · cases c.enabled <;> simp [restPosition, disabled]

theorem establishAmp_ok {s : State} (h : ∀ k, (s.amp k).ok = true) (j : AmpNo) :
    ∀ k, ((establishAmp s j).amp k).ok = true := by
  have set : ∀ st, st ≠ .disabled → ∀ k, ((setAmpState j st s).amp k).ok = true := by
    intro st hst k
    rw [amp_setAmpState]; split
    · exact (Amp.ok_iff _).mpr ⟨((Amp.ok_iff _).mp (h j)).1, .inl hst⟩
    · exact h k
  unfold establishAmp; dsimp only
  split
  · exact h
  · split
    · exact set _ (by decide)
    · exact set _ (by decide)

theorem establishAmp_lines (s : State) (j : AmpNo) : (establishAmp s j).lines = s.lines := by
  have set : ∀ st, (setAmpState j st s).lines = s.lines := by
    intro st; unfold setAmpState; dsimp only; split <;> rfl
  unfold establishAmp; dsimp only
  split
  · rfl
  · split
    · exact set _
    · exact set _

theorem foldl_establishAmp {s : State} (h : ∀ k, (s.amp k).ok = true) (l : List AmpNo) :
    (l.foldl establishAmp s).lines = s.lines ∧ ∀ k, ((l.foldl establishAmp s).amp k).ok = true := by
  induction l generalizing s with
  | nil => exact ⟨rfl, h⟩
  | cons j l ih =>
    obtain ⟨lines, amps⟩ := ih (establishAmp_ok h j)
    exact ⟨lines.trans (establishAmp_lines s j), amps⟩

/-- The amplifiers and the lines established at the end of LOADING (R3, R72). -/
def established (s : State) : State := allLines.foldl establishLine (allAmps.foldl establishAmp s)

theorem endLoading_eq (s : State) : endLoading s =
    if (established s).mc.sys.autostart then enterSettling false (established s) else enterStandby (established s) := by
  unfold endLoading established
  dsimp only

theorem established_inOrder_records (h : Kept sel s) (hm : s.mc.mode = .loading) :
    (∀ n, ((established s).line n).inOrder sel) ∧ ∀ k, ((established s).amp k).ok = true := by
  rw [kept_iff] at h
  obtain ⟨lines, amps⟩ := foldl_establishAmp (fun k => (h.2 k).1) allAmps
  refine ⟨fun n => ?_, fun k => ?_⟩
  · refine (foldl_onlyLine establishLine_onlyLine (P := fun l => l.ok = true ∧ l.state = .disabled)
      (Q := Line.inOrder sel) (fun _ _ h => h) (fun _ a h => h.learn a) ?_ allLines nodup_allLines _ ?_ n).1 (mem_allLines n)
    · rintro u m ⟨ok, disabled⟩
      obtain ⟨r, e, a, hr⟩ := line_establishLine u m
      rw [hr]
      exact established_inOrder ok disabled _ r e a
    · intro m _
      rw [line_congr lines]
      exact ⟨(h.1 m).1, (h.1 m).2.1 hm⟩
  · rw [established, amp_congr (foldl_work _ establishLine_work _ _).amps]
    exact amps k

theorem enterStandby_inOrder (lines : ∀ n, (s.line n).inOrder sel) (amps : ∀ k, (s.amp k).ok = true) :
    InOrder sel (enterStandby s) := by
  have standby : InOrder sel { s with mc.mode := .standby } := ⟨by simp, lines, amps⟩
  unfold enterStandby
  exact (standby.mapLines fun _ hl => hl.timer freeze_idle).table (signalAll_same _).table

theorem endLoading_kept (h : Kept sel s) (hm : s.mc.mode = .loading) : Kept sel (endLoading s) := by
  obtain ⟨lines, amps⟩ := established_inOrder_records h hm
  rw [endLoading_eq]
  split
  · exact (enterSettling_inOrder lines amps false).kept
  · exact (enterStandby_inOrder lines amps).kept

theorem loadRaises_same (s : State) : SameButTable s (loadRaises s) := by
  have rejected : ∀ (s : State) (k : RecordNo), SameButTable s (raiseRejected s k) := by
    intro s k
    unfold raiseRejected; dsimp only
    split
    · split
      · exact raise_same s _ _
      · exact .refl s
    · split
      · exact raise_same s _ _
      · exact .refl s
  have uncalibrated : ∀ (s : State) (n : LineNo), SameButTable s (raiseUncalibrated s n) := by
    intro s n
    unfold raiseUncalibrated; split
    · exact raise_same s _ _
    · exact .refl s
  exact (foldl_sameButTable _ rejected _ s).trans (foldl_sameButTable _ uncalibrated _ _)

theorem settleRecord_kept (h : Kept sel s) (hm : s.mc.mode = .loading) (k : RecordNo) (b : List Byte) (cause : LoadCause) :
    Kept sel (settleRecord k b cause s) := by
  have settled := recordSettled_kept h hm k b cause
  have loading := (recordSettled_mode k b cause s).trans hm
  rw [settleRecord_eq]
  generalize recordSettled k b cause s = u at settled loading
  have next : Kept sel { u with store.judged := u.store.judged + 1, store.readLeft := readMs } := settled.congr rfl rfl rfl
  unfold nextRead; dsimp only
  split
  · have raised := loadRaises_same { u with store.judged := u.store.judged + 1, store.readLeft := readMs }
    exact endLoading_kept (next.table raised) (by rw [raised.mc]; exact loading)
  · exact next

/-- The load reads a record only in LOADING (R166). -/
theorem mode_of_reading {k : RecordNo} (h : s.reading = some k) : s.mc.mode = .loading := by
  unfold State.reading at h; split at h
  · assumption
  · cases h

/-! ### Resets -/

theorem beginReset_kept (kind : ResetKind) : Kept sel (beginReset kind s) := by
  have reset : Kept sel State.reset := by
    refine ⟨by decide +kernel, fun _ => by decide +kernel⟩
  exact reset.congr rfl rfl rfl

/-! ### Events -/

/-- In LOADING nothing is measured or operated on and no round is in progress (R28, R155). -/
theorem loading_quiet (h : s.modeOk = true) (hm : s.mc.mode = .loading) :
    s.chan.inFlight = none ∧ s.co.op = none ∧ s.chan.round = none := by
  simp only [State.modeOk, Bool.and_eq_true, hm, State.runs] at h
  obtain ⟨⟨⟨-, round⟩, -⟩, quiet⟩ := h
  simp_all

/-- In LOADING an arrival finds nothing to search (R32). -/
theorem arrival_loading (hm : s.mc.mode = .loading) : arrival s = s ∨ arrival s = { s with chan.inFlight := none } := by
  unfold arrival channelFree; dsimp only
  split
  · exact .inl rfl
  · rw [hm]; exact .inr rfl

theorem relayDone_kept (h : Kept sel s) (hq : s.modeOk = true) (n : LineNo) : Kept sel (relayDone n s) := by
  by_cases hm : s.mc.mode = .loading
  · obtain ⟨-, hop, -⟩ := loading_quiet hq hm
    have rest : Kept sel (s.setLine n { s.line n with relayLeft := none }) := by
      rw [kept_iff] at h ⊢
      refine ⟨fun m => ?_, h.2⟩
      rw [line_setLine]; split
      · next e => subst e; exact h.1 m
      · exact h.1 m
    have quiet : ∀ u : State, u.co.op = none → Kept sel u → Kept sel (reportMove arrival u) := by
      intro u hu hk
      unfold reportMove moveDone; split
      · rw [hu]; exact hk.congr rfl rfl rfl
      · exact hk
    unfold relayDone; dsimp only
    obtain e | e := arrival_loading (s := s.setLine n { s.line n with relayLeft := none }) hm <;> rw [e]
    · exact quiet _ hop (rest.congr rfl rfl rfl)
    · exact quiet _ hop (rest.congr rfl rfl rfl)
  · exact (relayDone_inOrder ((kept_iff_inOrder hm).mp h) n).kept

theorem retryExpired_kept (h : Kept sel s) (n : LineNo) (ht : (s.line n).timer ≠ .idle) :
    Kept sel (reportMove arrival (expireRetry n s)) := by
  have hm : s.mc.mode ≠ .loading := by
    intro hm
    obtain ⟨ok, disabled, -⟩ := (kept_iff.mp h).1 n
    have rests := ((Line.ok_iff _).mp ok)
    obtain ⟨-, -, -, -, rests, -⟩ := rests
    simp [Line.restsOk, disabled hm, ht] at rests
  exact (reportMove_inOrder (expireRetry_inOrder ((kept_iff_inOrder hm).mp h) n ht)).kept

theorem endEmergencyIfOver_kept (h : Kept sel s) (hq : s.modeOk = true) (u : State) :
    Kept sel (endEmergencyIfOver u s) := by
  by_cases hm : s.mc.mode = .loading
  · obtain ⟨-, hop, -⟩ := loading_quiet hq hm
    have runs : s.runs = false := by simp [State.runs, hm]
    unfold endEmergencyIfOver endEmergency grantAttempt; dsimp only
    split
    · simpa [runs] using h
    · exact h
  · exact (endEmergencyIfOver_inOrder ((kept_iff_inOrder hm).mp h)).kept

theorem tick_kept (h : Kept sel s) : Kept sel (tick s) := by
  unfold tick; split
  · exact h
  · rw [kept_iff] at h ⊢
    refine ⟨fun n => ?_, h.2⟩
    obtain ⟨ok, disabled, pos⟩ := h.1 n
    have line : (State.line { s.mapLines Line.tick with
        chan :=
          { s.chan with
            inFlight := s.chan.inFlight.map fun m => { m with left := countDown m.left }
            round := s.chan.round.map fun r => { r with left := countDown r.left } }
        store :=
          { s.store with
            readLeft := countDown s.store.readLeft
            write := s.store.write.map fun w => { w with left := countDown w.left } } } n) = (s.line n).tick :=
      line_mapLines s Line.tick n
    have order : (s.line n).inOrder false := ⟨ok, by simp⟩
    rw [line]
    exact ⟨(order.timer fun e => by simp only [Line.tick, e]).1, disabled, pos⟩

/-! ### Every command -/

theorem lineRequest_kept {q : Request} {p : Port} {payload : List Byte} {act : LineNo → State → State × Reply}
    (hq : q.inLoading = false) (ha : InOrder sel s → ∀ n, InOrder sel (act n s).1)
    (ht : takeRequest q p payload (onLine payload act) s = .next t) (h : Kept sel s) : Kept sel t :=
  takeRequest_kept hq (fun hs => onLine_inOrder hs payload (ha hs)) ht h

theorem ampRequest_kept {q : Request} {p : Port} {payload : List Byte} {act : AmpNo → State → State × Reply}
    (hq : q.inLoading = false) (ha : InOrder sel s → ∀ k, InOrder sel (act k s).1)
    (ht : takeRequest q p payload (onAmp payload act) s = .next t) (h : Kept sel s) : Kept sel t :=
  takeRequest_kept hq (fun hs => onAmp_inOrder hs payload (ha hs)) ht h

/-- The requests on the notification unit and the fault table touch no record of a line or an amplifier. -/
theorem tableRequest_kept {q : Request} {p : Port} {payload : List Byte} {act : State → State × Reply}
    (hq : q.inLoading = false) (ha : SameButTable s (act s).1) (ht : takeRequest q p payload act s = .next t)
    (h : Kept sel s) : Kept sel t :=
  takeRequest_kept hq (fun hs => hs.table ha) ht h

theorem startMode_inOrder (h : InOrder sel s) : InOrder sel (startMode s).1 := by
  unfold startMode; split
  · exact h
  · exact enterSettling_inOrder h.lines h.amps true
  · exact h
  · exact h
  · exact h

theorem stopMode_inOrder (h : InOrder sel s) : InOrder sel (stopMode s).1 := by
  unfold stopMode
  split; · exact h
  split; · exact h
  split; · exact h
  split; · exact h
  dsimp only
  exact enterStopping_inOrder h

theorem setArea_kept (h : Kept sel s) (k : RecordNo) (a : Area) : Kept sel (setArea k a s) := h.congr rfl rfl rfl

theorem setArea_mode (k : RecordNo) (a : Area) (s : State) : (setArea k a s).mc.mode = s.mc.mode := rfl

theorem setStatus_kept (h : Kept sel s) (k : RecordNo) (x : RecordStatus) : Kept sel (setStatus k x s) :=
  h.congr rfl rfl rfl

theorem writeDone_kept (h : Kept sel s) (w : WriteInFlight) : Kept sel (writeDone w s) := by
  have ended : Kept sel { s with store.write := none } := h.congr rfl rfl rfl
  exact Kept.table (Kept.table (setStatus_kept (setArea_kept ended _ _) _ _) (clear_same _ _ _)) (complete_same _ _ _).table

theorem writeTimedOut_kept (h : Kept sel s) (w : WriteInFlight) : Kept sel (writeTimedOut w s) := by
  have ended : Kept sel { s with store.write := none, store.reportsDue := s.store.reportsDue + 1 } := h.congr rfl rfl rfl
  refine Kept.table ?_ (complete_same _ _ _).table
  split
  · exact setStatus_kept (setArea_kept ended _ _) _ _
  · exact (setStatus_kept (setArea_kept ended _ _) _ _).table (raise_same _ _ _)

theorem execListen_kept {p : Port} {b : List Byte} (ht : execListen p b s = .next t) (h : Kept sel s) : Kept sel t := by
  unfold execListen at ht
  refine tableRequest_kept rfl ?_ ht h
  dsimp only; split
  · exact .refl s
  · exact startListening_same s p

theorem execLeave_kept {p : Port} {b : List Byte} (ht : execLeave p b s = .next t) (h : Kept sel s) : Kept sel t := by
  unfold execLeave at ht
  refine tableRequest_kept rfl ?_ ht h
  split
  · exact stopListening_same s p
  · exact .refl s

theorem execSetNotify_kept {p : Port} {b : List Byte} (ht : execSetNotify p b s = .next t) (h : Kept sel s) : Kept sel t := by
  unfold execSetNotify at ht
  refine tableRequest_kept rfl ?_ ht h
  exact (setPort_same s p _).trans (setPort_same _ p _)

theorem execFetch_kept {p : Port} {b : List Byte} (ht : execFetch p b s = .next t) (h : Kept sel s) : Kept sel t := by
  unfold execFetch at ht
  refine tableRequest_kept rfl ?_ ht h
  dsimp only; split
  · exact setPort_same s p _
  · split
    · exact setPort_same s p _
    · exact fetchRecord_same s p _ _

theorem execDone_kept {p : Port} {b : List Byte} (ht : execDone p b s = .next t) (h : Kept sel s) : Kept sel t := by
  unfold execDone at ht
  refine tableRequest_kept rfl ?_ ht h
  dsimp only; split
  · exact .refl s
  · exact finishClass_same s p _

theorem execDoneClass_kept {p : Port} {b : List Byte} (ht : execDoneClass p b s = .next t) (h : Kept sel s) : Kept sel t := by
  unfold execDoneClass at ht
  refine tableRequest_kept rfl ?_ ht h
  dsimp only; split
  · exact .refl s
  · split
    · exact finishClass_same s p _
    · exact .refl s

theorem execReadCompletion_kept {p : Port} {b : List Byte} (ht : execReadCompletion p b s = .next t) (h : Kept sel s) : Kept sel t := by
  unfold execReadCompletion at ht
  refine tableRequest_kept rfl ?_ ht h
  dsimp only; split
  · exact .refl s
  · exact setPort_same s p _

theorem execResetPort_kept {p : Port} {b : List Byte} (ht : execResetPort p b s = .next t) (h : Kept sel s) : Kept sel t := by
  unfold execResetPort at ht
  refine takeRequest_kept rfl (fun hs => ?_) ht h
  exact endEmergencyIfOver_inOrder (setFlag_inOrder (hs.table (resetPortSide_same s p)) p false)

theorem execAck_kept {p : Port} {b : List Byte} (ht : execAck p b s = .next t) (h : Kept sel s) : Kept sel t := by
  unfold execAck at ht
  refine tableRequest_kept rfl ?_ ht h
  split
  · exact .refl s
  · split
    · exact .refl s
    · split
      · exact acknowledge_same s _ p
      · exact .refl s

theorem execEmergencyOn_kept {p : Port} {b : List Byte} (ht : execEmergencyOn p b s = .next t) (h : Kept sel s) : Kept sel t := by
  unfold execEmergencyOn at ht
  refine takeRequest_kept rfl (fun hs => ?_) ht h
  split
  · exact hs
  · exact setFlag_inOrder hs p true

theorem execEmergencyOff_kept {p : Port} {b : List Byte} (ht : execEmergencyOff p b s = .next t) (h : Kept sel s) : Kept sel t := by
  unfold execEmergencyOff at ht
  refine takeRequest_kept rfl (fun hs => ?_) ht h
  split
  · exact endEmergencyIfOver_inOrder (setFlag_inOrder hs p false)
  · exact hs

theorem execConfigureSystem_kept {p : Port} {b : List Byte} (ht : execConfigureSystem p b s = .next t) (h : Kept sel s) : Kept sel t := by
  unfold execConfigureSystem at ht
  refine takeRequest_kept rfl (fun hs => ?_) ht h
  unfold configureSystem; dsimp only; split
  · exact hs
  · exact hs.congr rfl rfl hs.mode

theorem execStore_kept {p : Port} {tag : Byte} {b : List Byte} (ht : execStore p tag b s = .next t) (h : Kept sel s) : Kept sel t := by
  unfold execStore at ht
  refine takeRequest_kept rfl (fun hs => ?_) ht h
  unfold storeRecord; split
  · exact hs
  · split
    · exact hs
    · split
      · exact hs
      · exact accept_inOrder (s := startWrite p tag _ s) (hs.congr rfl rfl hs.mode) p

theorem execUnknownRequest_kept {p : Port} {code : Byte} {length : Byte} (ht : execUnknownRequest p code length s = .next t) (h : Kept sel s) : Kept sel t := by
  unfold execUnknownRequest at ht
  refine takeEvent_kept ?_ ht h
  split
  · exact h.congr rfl rfl rfl
  · split
    · exact h
    · exact h.congr rfl rfl rfl

theorem execFrameAborted_kept {p : Port} {received : List Byte} (ht : execFrameAborted p received s = .next t) (h : Kept sel s) : Kept sel t := by
  unfold execFrameAborted at ht
  refine takeEvent_kept ?_ ht h
  exact h

theorem execResetEnd_kept {low : Bool} {emerg : Bool} (ht : execResetEnd low emerg s = .next t) (h : Kept sel s) : Kept sel t := by
  unfold execResetEnd at ht
  split at ht <;> cases ht
  · unfold endReset; dsimp only; split
    · exact (h.congr (t := { s with
        mc.cause := _, mc.emergInput := emerg, mc.supply := _, mc.resetInForce := none }) rfl rfl rfl).table
          (raise_same _ _ _)
    · exact h.congr rfl rfl rfl
  · exact h

theorem execRecordRead_kept {b : List Byte} (ht : execRecordRead b s = .next t) (h : Kept sel s) : Kept sel t := by
  unfold execRecordRead at ht
  refine takeEvent_kept ?_ ht h
  split
  · exact h
  · next k hk =>
    split
    · exact settleRecord_kept (setArea_kept h k _) ((setArea_mode k _ s).trans (mode_of_reading hk)) k b _
    · exact h

theorem execUnreadable_kept (ht : execUnreadable s = .next t) (h : Kept sel s) : Kept sel t := by
  unfold execUnreadable at ht
  refine takeEvent_kept ?_ ht h
  split
  · exact h
  · next k hk => exact settleRecord_kept h (mode_of_reading hk) k [] _

theorem execEmergAsserted_kept (ht : execEmergAsserted s = .next t) (h : Kept sel s) : Kept sel t := by
  unfold execEmergAsserted at ht
  refine takeEvent_kept ?_ ht h
  exact h.congr rfl rfl rfl

theorem execEmergReleased_kept (ht : execEmergReleased s = .next t) (hm : s.modeOk = true) (h : Kept sel s) : Kept sel t := by
  unfold execEmergReleased at ht
  refine takeEvent_kept ?_ ht h
  exact endEmergencyIfOver_kept (s := { s with mc.emergInput := false }) (h.congr rfl rfl rfl) hm s

theorem execSupplyFalls_kept (ht : execSupplyFalls s = .next t) (h : Kept sel s) : Kept sel t := by
  unfold execSupplyFalls at ht
  refine takeEvent_kept ?_ ht h
  split
  · exact (h.congr (t := { s with mc.supply := .low }) rfl rfl rfl).table (raise_same _ _ _)
  · exact h

theorem execSupplyRises_kept (ht : execSupplyRises s = .next t) (h : Kept sel s) : Kept sel t := by
  unfold execSupplyRises at ht
  refine takeEvent_kept ?_ ht h
  split
  · exact (h.congr (t := { s with mc.supply := .normal }) rfl rfl rfl).table (clear_same _ _ _)
  · exact h

theorem execMeasurementCompletion_kept {r : Reading} (ht : execMeasurementCompletion r s = .next t) (hm : s.modeOk = true) (h : Kept sel s) : Kept sel t := by
  unfold execMeasurementCompletion at ht
  refine takeEvent_kept ?_ ht h
  split
  · exact h
  · next m hf =>
    split
    · refine (completeMeasurement_inOrder ((kept_iff_inOrder fun hl => ?_).mp h) m r).kept
      rw [(loading_quiet hm hl).1] at hf
      cases hf
    · exact h

theorem execEmptyRoundExpiry_kept (ht : execEmptyRoundExpiry s = .next t) (hm : s.modeOk = true) (h : Kept sel s) : Kept sel t := by
  unfold execEmptyRoundExpiry at ht
  refine takeEvent_kept ?_ ht h
  split
  · next hr =>
    refine (arrival_inOrder ((inOrder_search sel).endRound s ((kept_iff_inOrder fun hl => ?_).mp h))).kept
    simp [State.emptyRound, (loading_quiet hm hl).2.2] at hr
  · exact h

theorem execRelayCompletion_kept {n : LineNo} (ht : execRelayCompletion n s = .next t) (hm : s.modeOk = true) (h : Kept sel s) : Kept sel t := by
  unfold execRelayCompletion at ht
  refine takeEvent_kept ?_ ht h
  split
  · exact relayDone_kept h hm n
  · exact h

theorem execRetryExpiry_kept {n : LineNo} (ht : execRetryExpiry n s = .next t) (h : Kept sel s) : Kept sel t := by
  unfold execRetryExpiry at ht
  refine takeEvent_kept ?_ ht h
  split
  · next ms ht => exact retryExpired_kept h n (by rw [ht]; simp)
  · exact h

theorem lateReport_kept (h : Kept sel s) : Kept sel (lateReport s) := h.congr rfl rfl rfl

theorem execWriteCompletion_kept (ht : execWriteCompletion s = .next t) (h : Kept sel s) : Kept sel t := by
  unfold execWriteCompletion at ht
  refine takeEvent_kept ?_ ht h
  have used : Kept sel { s with freeUses := s.freeUses + 1 } := h.congr rfl rfl rfl
  cases s.store.write with
  | none => exact lateReport_kept h
  | some w =>
    dsimp only
    split
    · exact writeDone_kept h w
    · split
      · exact lateReport_kept used
      · exact writeDone_kept used w

theorem execWriteTimeout_kept (ht : execWriteTimeout s = .next t) (h : Kept sel s) : Kept sel t := by
  unfold execWriteTimeout at ht
  refine takeEvent_kept ?_ ht h
  split
  · exact writeTimedOut_kept h _
  · exact h

theorem exec_kept (c : Instr) (ht : exec c s = .next t) (hm : s.modeOk = true) (h : Kept sel s) : Kept sel t := by
  cases c with
  | status p _ b =>
    unfold exec execStatus at ht
    exact readRequest_kept rfl ht h
  | identify p _ b =>
    unfold exec execIdentify at ht
    exact readRequest_kept rfl ht h
  | readLine p _ b =>
    unfold exec execReadLine at ht
    exact readRequest_kept (by split <;> rfl) ht h
  | readAmp p _ b =>
    unfold exec execReadAmp at ht
    exact readRequest_kept (by split <;> rfl) ht h
  | readRecord p _ b =>
    unfold exec execReadRecord at ht
    exact readRequest_kept (by split <;> rfl) ht h
  | listRecords p _ b =>
    unfold exec execListRecords at ht
    exact readRequest_kept rfl ht h
  | readQueue p _ b =>
    unfold exec execReadQueue at ht
    exact readRequest_kept rfl ht h
  | listen p _ b => exact execListen_kept ht h
  | leave p _ b => exact execLeave_kept ht h
  | setNotify p _ b => exact execSetNotify_kept ht h
  | fetch p _ b => exact execFetch_kept ht h
  | peek p _ b =>
    unfold exec execPeek at ht
    exact readRequest_kept rfl ht h
  | done p _ b => exact execDone_kept ht h
  | doneClass p _ b => exact execDoneClass_kept ht h
  | readCompletion p _ b => exact execReadCompletion_kept ht h
  | resetPort p _ b => exact execResetPort_kept ht h
  | ack p _ b => exact execAck_kept ht h
  | ackAll p _ b =>
    unfold exec execAckAll at ht
    refine tableRequest_kept rfl ?_ ht h
    exact foldl_sameButTable _ (fun s k => acknowledge_same s k p) _ s
  | isolate p _ b =>
    unfold exec execIsolate at ht
    exact lineRequest_kept rfl (fun hs n => isolateLine_inOrder hs n) ht h
  | restore p tag b =>
    unfold exec execRestore at ht
    exact lineRequest_kept rfl (fun hs n => restoreLine_inOrder hs p tag n) ht h
  | enableLine p _ b =>
    unfold exec execEnableLine at ht
    exact lineRequest_kept rfl (fun hs n => enableLine_inOrder hs n) ht h
  | disableLine p _ b =>
    unfold exec execDisableLine at ht
    exact lineRequest_kept rfl (fun hs n => disableLine_inOrder hs n) ht h
  | configureLine p _ b =>
    unfold exec execConfigureLine at ht
    exact lineRequest_kept rfl (fun hs n => configureLine_inOrder hs b n) ht h
  | learn p tag b =>
    unfold exec execLearn at ht
    exact lineRequest_kept rfl (fun hs n => learnLine_inOrder hs p tag n) ht h
  | cover p tag b =>
    unfold exec execCover at ht
    exact ampRequest_kept rfl (fun hs k => coverAmp_inOrder hs p tag k) ht h
  | returnLines p tag b =>
    unfold exec execReturnLines at ht
    exact ampRequest_kept rfl (fun hs k => returnAmp_inOrder hs p tag k) ht h
  | enableAmp p _ b =>
    unfold exec execEnableAmp at ht
    exact ampRequest_kept rfl (fun hs k => enableAmp_inOrder hs k) ht h
  | disableAmp p _ b =>
    unfold exec execDisableAmp at ht
    exact ampRequest_kept rfl (fun hs k => disableAmp_inOrder hs k) ht h
  | configureAmp p _ b =>
    unfold exec execConfigureAmp at ht
    exact ampRequest_kept rfl (fun hs k => configureAmp_inOrder hs b k) ht h
  | start p _ b =>
    unfold exec execStart at ht
    refine takeRequest_kept rfl (fun hs => ?_) ht h
    exact startMode_inOrder hs
  | stop p _ b =>
    unfold exec execStop at ht
    refine takeRequest_kept rfl (fun hs => ?_) ht h
    exact stopMode_inOrder hs
  | emergencyOn p _ b => exact execEmergencyOn_kept ht h
  | emergencyOff p _ b => exact execEmergencyOff_kept ht h
  | configureSystem p _ b => exact execConfigureSystem_kept ht h
  | store p tag b => exact execStore_kept ht h
  | unknownRequest p code tag length => exact execUnknownRequest_kept ht h
  | frameAborted p received => exact execFrameAborted_kept (p := p) (received := received) ht h
  | powerOn =>
    unfold exec execPowerOn at ht
    cases ht
    exact beginReset_kept _
  | brownOut =>
    unfold exec execBrownOut at ht
    cases ht
    exact beginReset_kept _
  | resetPin =>
    unfold exec execResetPin at ht
    cases ht
    exact beginReset_kept _
  | resetEnd low emerg => exact execResetEnd_kept ht h
  | recordRead b => exact execRecordRead_kept ht h
  | unreadable => exact execUnreadable_kept ht h
  | emergAsserted => exact execEmergAsserted_kept ht h
  | emergReleased => exact execEmergReleased_kept ht hm h
  | supplyFalls => exact execSupplyFalls_kept ht h
  | supplyRises => exact execSupplyRises_kept ht h
  | measurementCompletion r => exact execMeasurementCompletion_kept ht hm h
  | emptyRoundExpiry => exact execEmptyRoundExpiry_kept ht hm h
  | relayCompletion n => exact execRelayCompletion_kept ht hm h
  | retryExpiry n => exact execRetryExpiry_kept ht h
  | writeCompletion => exact execWriteCompletion_kept ht h
  | writeTimeout => exact execWriteTimeout_kept ht h

theorem step_kept (ht : step s = .next t) (hm : s.modeOk = true) (h : Kept sel s) : Kept sel t := by
  unfold step at ht
  split at ht
  · obtain rfl := Host.Outcome.next.inj ht
    exact tick_kept h
  · next c rest _ =>
    exact exec_kept (s := { s with pending := rest }) c ht hm (h.congr rfl rfl rfl)

end Sys2Proof.Machine

open Sys2Proof.Machine in
/-- Settles O57: outside LOADING every operation of the blocks keeps each record in order, and in LOADING every line and
amplifier is DISABLED until the last record has been judged. -/
theorem everyStepKeepsTheLineAndAmplifierRecords : Obligations.EveryStepKeepsTheLineAndAmplifierRecords := by
  intro s t ht hr hm
  exact ⟨(step_kept (sel := false) ht hm ⟨hr, by simp⟩).1,
    fun hs => (step_kept (sel := true) ht hm ⟨hr, fun _ => hs⟩).2 rfl⟩
end

section
/-! PROOFS. The operations shared by the requests as exact next states: completions, the end of a learn job, selector orders,
the report of a move; how a request that the port interface passes is answered; and O29, O30. -/

namespace Sys2Proof.Machine

variable (s : State) (n m : LineNo)

/-! ### Completions (R143) -/

/-- The ports after a completion has been handed on (R143, R175). -/
def handedOn (r : Option Requester) (o : CompletionOutcome) (x : PerPort PortState) : PerPort PortState :=
  match r with
  | none => x
  | some r =>
    let y := x.get r.port
    if r.session = y.session ∧ 0 < y.inFlight then
      x.set r.port
        { y with inFlight := y.inFlight - 1, completions := y.completions ++ [⟨r.tag, r.request, o⟩] }
    else x

theorem complete_eq (r : Requester) (o : CompletionOutcome) :
    complete r o s = { s with ports := handedOn (some r) o s.ports } := by
  unfold complete handedOn
  by_cases h : r.session = (s.port r.port).session ∧ 0 < (s.port r.port).inFlight
  · simp only [ports_get, h, and_self, ↓reduceIte]; rfl
  · simp only [ports_get, h, ↓reduceIte]

theorem completeIfAny_eq (r : Option Requester) (o : CompletionOutcome) :
    completeIfAny r o s = { s with ports := handedOn r o s.ports } := by
  cases r with
  | none => rfl
  | some r => exact complete_eq s r o

theorem endWaiting_eq (o : CompletionOutcome) : endWaiting n o s =
    { s.setLine n { s.line n with waiting := none } with ports := handedOn (s.line n).waiting o s.ports } := by
  unfold endWaiting; dsimp only
  rw [completeIfAny_eq]
  rfl

/-- A completion of the port's session, with one in flight, joins the port's list (R143). -/
theorem get_handedOn_same {r : Requester} (o : CompletionOutcome) (x : PerPort PortState)
    (hs : r.session = (x.get r.port).session) (hf : 0 < (x.get r.port).inFlight) :
    (handedOn (some r) o x).get r.port =
      { x.get r.port with
        inFlight := (x.get r.port).inFlight - 1
        completions := (x.get r.port).completions ++ [⟨r.tag, r.request, o⟩] } := by
  simp [handedOn, hs, hf]

/-! ### The end of a learn job (R58) -/

/-- The channel when the learn job has ended (R58). -/
def Channel.jobEnded (c : Channel) : Channel :=
  { c with job := none, inFlight := c.inFlight.map fun m => { m with orphan := m.orphan || m.cls = .learn } }

theorem endLearn_none (o : CompletionOutcome) (h : s.chan.job = none) : endLearn o s = s := by simp [endLearn, h]

theorem endLearn_eq (o : CompletionOutcome) {j : LearnJob} (h : s.chan.job = some j) : endLearn o s =
    { s.setLine j.line { s.line j.line with learn := none } with
      chan := s.chan.jobEnded, ports := handedOn (some j.requester) o s.ports } := by
  have orphaned : (fun m : Measurement => if m.cls = .learn then { m with orphan := true } else m) =
      fun m => { m with orphan := m.orphan || m.cls = .learn } := by
    funext m; by_cases hm : m.cls = .learn <;> simp [hm]
  unfold endLearn
  rw [h]
  dsimp only
  rw [complete_eq, orphaned]
  rfl

theorem learnsOn_iff : s.learnsOn n = true ↔ ∃ j, s.chan.job = some j ∧ j.line = n := by
  simp [State.learnsOn, Option.any_eq_true]

theorem abortLearnOf_other (h : s.learnsOn n = false) : abortLearnOf n s = s := by
  unfold abortLearnOf
  cases hj : s.chan.job with
  | none => rfl
  | some j =>
    have : j.line ≠ n := fun e => by simp [State.learnsOn, hj, e] at h
    simp [this]

theorem abortLearnOf_own (h : s.learnsOn n = true) : abortLearnOf n s =
    { s.setLine n { s.line n with learn := none } with
      chan := s.chan.jobEnded, ports := handedOn (s.chan.job.map (·.requester)) .learnAborted s.ports } := by
  obtain ⟨j, hj, rfl⟩ := (learnsOn_iff s n).mp h
  unfold abortLearnOf
  rw [hj]
  dsimp only
  rw [if_pos rfl, endLearn_eq s _ hj, Option.map_some]

/-! ### Selector orders (R5) -/

/-- The move that is waited for after an order to line `n` (R7): a line whose relay operation is superseded leaves it. -/
def State.moveAfter (s : State) (n : LineNo) (pos : Selector) : Option (List LineNo) :=
  if (s.line n).selector = pos then s.move else s.move.map (·.filter (· ≠ n))

/-- The line record after an order, with its learn job ended where there is one (R5, R58). -/
def State.ordered (s : State) (n : LineNo) (pos : Selector) : Line :=
  { (s.line n).sentTo pos with
    learn := if (s.line n).selector ≠ pos ∧ s.learnsOn n = true then none else (s.line n).learn }

/-- An order for a new position, part by part (R5, R58). -/
theorem orderSelector_eq {pos : Selector} (h : (s.line n).selector ≠ pos) : orderSelector n pos s =
    { s.setLine n (s.ordered n pos) with
      move := s.move.map (·.filter (· ≠ n))
      chan := if s.learnsOn n then s.chan.jobEnded else s.chan
      ports :=
        if s.learnsOn n then handedOn (s.chan.job.map (·.requester)) .learnAborted s.ports else s.ports } := by
  rw [orderSelector_new s n h]
  cases hl : s.learnsOn n with
  | false =>
    refine (abortLearnOf_other _ n ?_).trans ?_
    · exact hl
    · simp [State.ordered, Line.sentTo, Line.ordered, h, hl, relayMs]
  | true =>
    refine (abortLearnOf_own _ n ?_).trans ?_
    · exact hl
    · simp [State.ordered, Line.sentTo, Line.ordered, h, hl, relayMs, State.setLine]

/-- An order to a line with no learn job (R5). -/
theorem orderSelector_quiet (pos : Selector) (h : s.learnsOn n = false) : orderSelector n pos s =
    { s.setLine n ((s.line n).sentTo pos) with move := s.moveAfter n pos } := by
  by_cases hp : (s.line n).selector = pos
  · rw [orderSelector_held s n hp]
    simp [Line.sentTo, State.moveAfter, hp]
  · rw [orderSelector_eq s n hp]
    simp [State.ordered, Line.sentTo, State.moveAfter, h, hp]

/-- The records after an order (R5, R58). -/
theorem line_orderSelector_eq (pos : Selector) :
    (orderSelector n pos s).line m = if m = n then s.ordered n pos else s.line m := by
  by_cases hp : (s.line n).selector = pos
  · rw [orderSelector_held s n hp]
    split
    · next h => subst h; subst hp; simp [State.ordered, Line.sentTo]
    · rfl
  · rw [orderSelector_eq s n hp]
    exact line_setLine s n m _

/-- What an order leaves as it stands: the fault table, and of the channel all but the job and its sample (R5, R58). -/
theorem orderSelector_frame (pos : Selector) :
    (orderSelector n pos s).faults = s.faults ∧ (orderSelector n pos s).chan.verify = s.chan.verify ∧
      (orderSelector n pos s).chan.confirm = s.chan.confirm ∧ (orderSelector n pos s).chan.round = s.chan.round ∧
      (orderSelector n pos s).freeUses = s.freeUses := by
  by_cases hp : (s.line n).selector = pos
  · rw [orderSelector_held s n hp]; exact ⟨rfl, rfl, rfl, rfl, rfl⟩
  · rw [orderSelector_eq s n hp]
    refine ⟨rfl, ?_, ?_, ?_, rfl⟩ <;> dsimp only <;> split <;> rfl

/-- An order to one line ends no other line's learn job (R58). -/
theorem learnsOn_orderSelector (pos : Selector) (h : m ≠ n) : (orderSelector n pos s).learnsOn m = s.learnsOn m := by
  by_cases hp : (s.line n).selector = pos
  · rw [orderSelector_held s n hp]
  · rw [orderSelector_eq s n hp]
    cases hl : s.learnsOn n with
    | false => simp only [State.learnsOn, Bool.false_eq_true, ↓reduceIte]
    | true =>
      obtain ⟨j, hj, rfl⟩ := (learnsOn_iff s n).mp hl
      simp [State.learnsOn, Channel.jobEnded, hj, Ne.symm h]

/-- An order touches the selector, its relay operation and the epoch alone (R5). -/
theorem sentTo_eq (l : Line) (pos : Selector) : l.sentTo pos =
    { l with selector := pos, relayLeft := (l.sentTo pos).relayLeft, epoch := (l.sentTo pos).epoch } := by
  unfold Line.sentTo; split
  · next h => rw [← h]
  · rfl

@[simp] theorem sentTo_cfg (l : Line) (pos : Selector) : (l.sentTo pos).cfg = l.cfg := by rw [sentTo_eq]
@[simp] theorem sentTo_state (l : Line) (pos : Selector) : (l.sentTo pos).state = l.state := by rw [sentTo_eq]
@[simp] theorem sentTo_selector (l : Line) (pos : Selector) : (l.sentTo pos).selector = pos := by rw [sentTo_eq]
@[simp] theorem sentTo_current (l : Line) (pos : Selector) : (l.sentTo pos).current = l.current := by rw [sentTo_eq]
@[simp] theorem sentTo_retryCount (l : Line) (pos : Selector) : (l.sentTo pos).retryCount = l.retryCount := by rw [sentTo_eq]
@[simp] theorem sentTo_waiting (l : Line) (pos : Selector) : (l.sentTo pos).waiting = l.waiting := by rw [sentTo_eq]
@[simp] theorem sentTo_timer (l : Line) (pos : Selector) : (l.sentTo pos).timer = l.timer := by rw [sentTo_eq]
@[simp] theorem sentTo_learn (l : Line) (pos : Selector) : (l.sentTo pos).learn = l.learn := by rw [sentTo_eq]

@[simp] theorem ordered_quiet {pos : Selector} (h : s.learnsOn n = false) : s.ordered n pos = (s.line n).sentTo pos := by
  simp only [State.ordered, h, Bool.false_eq_true, and_false, ↓reduceIte]
  rw [← sentTo_learn (s.line n) pos]

/-! ### Moves of lines (R7) -/

/-- The record of a line after a move to amplifier `y` (R7). -/
def State.movedLine (s : State) (n : LineNo) (y : AmpNo) : Line :=
  let l := s.line n
  if l.state = .connected then
    { l.sentTo (.bus y) with
      current := y
      learn := if (l.selector ≠ .bus y && s.learnsOn n) = true then none else l.learn }
  else { l with current := y }

/-- One line of a move: its own record, and no other (R7). -/
theorem line_moveLine (y : AmpNo) : (moveLine y s n).line m = if m = n then s.movedLine n y else s.line m := by
  unfold moveLine State.movedLine; dsimp only
  simp only [line_setLine_same]
  by_cases hc : (s.line n).state = .connected
  · rw [if_pos hc, if_pos hc, line_orderSelector_eq, line_setLine]
    by_cases hm : m = n
    · rw [if_pos hm, if_pos hm, State.ordered, line_setLine_same]
      by_cases hs : (s.line n).selector = .bus y <;>
        simp [Line.sentTo, hs, State.learnsOn]
    · rw [if_neg hm, if_neg hm, if_neg hm]
  · rw [if_neg hc, if_neg hc, line_setLine]

theorem learnsOn_moveLine (y : AmpNo) (h : m ≠ n) : (moveLine y s n).learnsOn m = s.learnsOn m := by
  unfold moveLine; dsimp only; split
  · exact learnsOn_orderSelector _ n m _ h
  · rfl

/-- What a move leaves as it stands (R7). -/
structure MoveFrame (s t : State) : Prop where
  work : LineWork s t
  faults : t.faults = s.faults
  verify : t.chan.verify = s.chan.verify
  confirm : t.chan.confirm = s.chan.confirm
  round : t.chan.round = s.chan.round

variable {s} in
theorem MoveFrame.trans {t u : State} (h : MoveFrame s t) (g : MoveFrame t u) : MoveFrame s u :=
  ⟨h.work.trans g.work, g.faults.trans h.faults, g.verify.trans h.verify, g.confirm.trans h.confirm,
    g.round.trans h.round⟩

theorem setLine_moveFrame (l : Line) : MoveFrame s (s.setLine n l) := ⟨setLine_work s n l, rfl, rfl, rfl, rfl⟩

theorem orderSelector_moveFrame (pos : Selector) : MoveFrame s (orderSelector n pos s) :=
  have ⟨faults, verify, confirm, round, _⟩ := orderSelector_frame s n pos
  ⟨orderSelector_work s n pos, faults, verify, confirm, round⟩

theorem moveLine_moveFrame (y : AmpNo) : MoveFrame s (moveLine y s n) := by
  unfold moveLine; dsimp only; split
  · exact (setLine_moveFrame s n _).trans (orderSelector_moveFrame _ n _)
  · exact setLine_moveFrame s n _

/-- A move of a list of lines, each once: every one of them moved, no other touched (R7). -/
theorem foldl_moveLine (y : AmpNo) (l : List LineNo) (hl : l.Nodup) (s : State) :
    MoveFrame s (l.foldl (moveLine y) s) ∧
      ∀ m, (l.foldl (moveLine y) s).line m = if m ∈ l then s.movedLine m y else s.line m := by
  induction l generalizing s with
  | nil => exact ⟨⟨.refl s, rfl, rfl, rfl, rfl⟩, fun m => by simp⟩
  | cons n l ih =>
    obtain ⟨fresh, rest⟩ := List.nodup_cons.mp hl
    obtain ⟨frame, lines⟩ := ih rest (moveLine y s n)
    refine ⟨(moveLine_moveFrame s n y).trans frame, fun m => ?_⟩
    rw [List.foldl_cons, lines]
    by_cases hm : m = n
    · subst hm
      rw [if_neg fresh, line_moveLine, if_pos rfl, if_pos (by simp)]
    · simp only [List.mem_cons, hm, false_or, State.movedLine, line_moveLine, if_false, learnsOn_moveLine s n m y hm]

/-- The lines of a move are those of the amplifier it takes them from. -/
theorem mem_moved (x : AmpNo) : n ∈ allLines.filter (fun n => (s.line n).current = x) ↔ (s.line n).current = x := by
  simp [mem_allLines]

theorem nodup_moved (x : AmpNo) : (allLines.filter fun n => (s.line n).current = x).Nodup := nodup_allLines.filter _

/-! ### The report of a move (R7) -/

theorem reportMove_idle (arr : Arrive) (h : s.move ≠ some []) : reportMove arr s = s := by simp [reportMove, h]

/-- A move that outlasts line `n` is not done, also after an order to that line (R7). -/
theorem move_of_outlasts (h : s.moveOutlasts n = true) :
    s.move ≠ some [] ∧ s.move.map (·.filter (· ≠ n)) ≠ some [] := by
  cases hm : s.move with
  | none => simp
  | some l =>
    rw [State.moveOutlasts, hm] at h
    obtain ⟨m, hl, hn⟩ := List.any_eq_true.mp h
    have stays : m ∈ l.filter (· ≠ n) := List.mem_filter.mpr ⟨hl, hn⟩
    refine ⟨fun e => ?_, fun e => ?_⟩
    · rw [Option.some.inj e] at hl; cases hl
    · have empty : l.filter (· ≠ n) = [] := Option.some.inj e
      rw [empty] at stays; cases stays

theorem moveAfter_cases (pos : Selector) :
    s.moveAfter n pos = s.move ∨ s.moveAfter n pos = s.move.map (·.filter (· ≠ n)) := by
  unfold State.moveAfter; split
  · exact .inl rfl
  · exact .inr rfl

theorem moveAfter_ne (pos : Selector) (h : s.moveOutlasts n = true) : s.moveAfter n pos ≠ some [] := by
  obtain e | e := moveAfter_cases s n pos <;> rw [e]
  · exact (move_of_outlasts s n h).1
  · exact (move_of_outlasts s n h).2

/-! ### Requests that the port interface passes (R172, R173) -/

theorem payloadLen_le (q : Request) : q.payloadLen ≤ 32 := by cases q <;> decide

theorem takeRequest_taken {q : Request} {p : Port} {payload : List Byte} (h : s.takes q p payload)
    (act : State → State × Reply) : takeRequest q p payload act s = .next ((act s).1.answer p (act s).2) := by
  obtain ⟨noReset, length, portM, mode, outstanding⟩ := h
  refine takeRequest_passed s q p payload act noReset ((portRefusal_none s q p payload).mpr ?_)
  exact ⟨length ▸ payloadLen_le q, length, portM, mode, outstanding⟩

theorem takeEvent_taken (h : s.mc.resetInForce = none) (f : State → State) : takeEvent f s = .next (f s) := by
  simp [takeEvent, h]

theorem onLine_eq {payload : List Byte} (h : byteAt payload 0 = n.val) (act : LineNo → State → State × Reply) :
    onLine payload act s = act n s := by
  simp [onLine, lineNo?, h]

theorem onAmp_eq {k : AmpNo} {payload : List Byte} (h : byteAt payload 0 = k.val) (act : AmpNo → State → State × Reply) :
    onAmp payload act s = act k s := by
  simp [onAmp, ampNo?, h]

theorem byteAt_linePayload : byteAt (linePayload n) 0 = n.val := by
  have := n.isLt
  simp [byteAt, linePayload]
  omega

theorem byteAt_ampPayload (k : AmpNo) : byteAt (ampPayload k) 0 = k.val := by
  have := k.isLt
  simp [byteAt, ampPayload]
  omega

/-- A request that names line `n` is answered with what it does to that line. -/
theorem lineRequest_taken {q : Request} {p : Port} (h : s.takes q p (linePayload n)) (act : LineNo → State → State × Reply) :
    takeRequest q p (linePayload n) (onLine (linePayload n) act) s = .next ((act n s).1.answer p (act n s).2) := by
  rw [takeRequest_taken s h, onLine_eq s n (byteAt_linePayload n)]

theorem ampRequest_taken (k : AmpNo) {q : Request} {p : Port} (h : s.takes q p (ampPayload k))
    (act : AmpNo → State → State × Reply) :
    takeRequest q p (ampPayload k) (onAmp (ampPayload k) act) s = .next ((act k s).1.answer p (act k s).2) := by
  rw [takeRequest_taken s h, onAmp_eq s (byteAt_ampPayload k)]

end Sys2Proof.Machine

open Sys2Proof.Machine in
/-- Settles O29: what an order makes of the state part by part. -/
theorem selectorOrderStartsARelayAndAbortsLearning : Obligations.SelectorOrderStartsARelayAndAbortsLearning := by
  refine fun n pos s => ⟨orderSelector_held s n, fun hp t ht => ?_⟩
  have exact : t = _ := ht.trans (orderSelector_eq s n hp)
  have lines : ∀ m, t.line m = if m = n then s.ordered n pos else s.line m := fun m => by
    rw [ht, line_orderSelector_eq]
  refine ⟨fun m hm => by rw [lines, if_neg hm], ?_, by rw [exact], fun hl => ?_, fun j hj e => ?_⟩
  · rw [lines, if_pos rfl]
    simp [State.ordered, Line.sentTo, hp]
  · rw [exact]
    simp [hl]
  · have learns : s.learnsOn n = true := (learnsOn_iff s n).mpr ⟨j, hj, e⟩
    refine ⟨?_, fun session counted => ?_⟩
    · rw [exact]
      simp [learns, Channel.jobEnded]
    · rw [exact]
      have handed : j.requester.session = (s.ports.get j.requester.port).session ∧
          0 < (s.ports.get j.requester.port).inFlight := ⟨session, counted⟩
      simp only [learns, ↓reduceIte, hj, Option.map_some, handedOn, handed, and_self]
      rfl

open Sys2Proof.Machine in
/-- Settles O30: a move is the fold of its lines, each ordered once. -/
theorem moveTakesEveryLineOfAnAmplifier : Obligations.MoveTakesEveryLineOfAnAmplifier := by
  intro x y s t ht
  subst ht
  obtain ⟨frame, lines⟩ := foldl_moveLine y _ (nodup_moved s x) s
  simp only [mem_moved] at lines
  have line : ∀ n, (moveLines x y s).line n = if (s.line n).current = x then s.movedLine n y else s.line n := lines
  refine ⟨fun n => ⟨fun hx => ?_, fun hx hc => ?_, fun hx hc => ?_⟩, fun l hl n => ?_, rfl, frame.work.amps,
    frame.work.co, frame.work.mc, frame.work.store, frame.faults, frame.verify, frame.confirm, frame.round⟩
  · rw [line, if_neg hx]
  · rw [line, if_pos hx, State.movedLine, if_neg hc]
  · rw [line, if_pos hx, State.movedLine, if_pos hc]
  · obtain rfl := Option.some.inj hl
    simp only [List.mem_filter, mem_allLines, true_and, decide_eq_true_eq]
end

section
/-! PROOFS. The requests on one line and the two that bring a subject into supervision, as exact next states
(O23, O24, O25). -/

namespace Sys2Proof.Machine

variable (s : State) (n : LineNo)

/-! ### ENABLE_LINE and ENABLE_AMP (R18, R83) -/

/-- A DISABLED line brought into supervision has its reset values but for its place and epoch (R18). -/
theorem brought_eq (l : Line) : l.brought = { resetLine n with
    cfg := { l.cfg with enabled := true }, state := .isolated, cause := .command, selector := l.selector
    relayLeft := l.relayLeft, current := l.current, epoch := l.epoch } := rfl

theorem enableLine_disabled (h : (s.line n).state = .disabled) : enableLine n s =
    (if (s.line n).cfg.zref = none then raise (.uncalibrated n) none (s.setLine n (s.line n).brought)
      else s.setLine n (s.line n).brought, bare .ok) := by
  simp [enableLine, h, Line.brought]

theorem enableAmp_disabled (k : AmpNo) (h : (s.amp k).state = .disabled) : enableAmp k s =
    (if (s.amp k).cfg.role = .standby then grantAttempt arrival (ampBrought k s) else ampBrought k s, bare .ok) := by
  simp only [enableAmp, h, ne_eq, not_true_eq_false, ↓reduceIte, bringAmp_eq s k h]
  cases (s.amp k).cfg.role <;> rfl

/-! ### ISOLATE (R15) -/

/-- ISOLATE of a CONNECTED line with no learn job (R15). -/
theorem isolateConnected_eq (h : s.learnsOn n = false) : isolateConnected n s =
    { s.setLine n { (s.line n).sentTo .off with
        state := .isolated, cause := .command, candidate := none, count := 0 } with
      chan := { s.chan with confirm := s.chan.confirm.filter (· ≠ .line n) }, move := s.moveAfter n .off } := by
  unfold isolateConnected dropDebounce withdrawConfirm
  simp only [orderSelector_quiet s n .off h]
  simp [State.setLine]

/-- ISOLATE of a PROBING line with no learn job (R15). -/
theorem isolateProbing_eq (h : s.learnsOn n = false) : isolateProbing n s =
    completeIfAny (s.line n).waiting .restoreAborted
      { s.setLine n { (s.line n).sentTo .off with
          state := .isolated, cause := .command, passCount := 0, timer := .idle, waiting := none } with
        chan := { s.chan with verify := s.chan.verify.filter (· ≠ .line n) }, move := s.moveAfter n .off } := by
  unfold isolateProbing endProbe withdrawVerify endWaiting
  simp only [orderSelector_quiet s n .off h]
  simp [State.setLine]

/-- What every accepted ISOLATE leaves of the line, however its move ends (R15): off by command, with no RESTORE waiting
unless the line was CONNECTED, and with its retry count. -/
structure Isolated (n : LineNo) (s t : State) : Prop where
  state : (t.line n).state = .isolated
  cause : (t.line n).cause = .command
  waiting : (s.line n).state ≠ .connected → (t.line n).waiting = none
  retryCount : (t.line n).retryCount = (s.line n).retryCount
  store : t.store = s.store

variable {s n} in
theorem Isolated.reported {u : State} (h : Isolated n s u) : Isolated n s (reportMove arrival u) := by
  obtain ⟨_, _, _, _, _, _, e⟩ := reportMove_keeps arrival_keeps u n
  exact ⟨by rw [e]; exact h.state, by rw [e]; exact h.cause, fun hc => by rw [e]; exact h.waiting hc,
    by rw [e]; exact h.retryCount, (reportMove_block arrival_block u).store.trans h.store⟩

theorem isolateConnected_isolated (h : (s.line n).state = .connected) : Isolated n s (isolateConnected n s) := by
  obtain ⟨_, _, _, e⟩ := line_isolateConnected s n
  exact ⟨by rw [e], by rw [e], fun hc => absurd h hc, by rw [e], (isolateConnected_onlyLine s n).work.store⟩

theorem isolateProbing_isolated : Isolated n s (isolateProbing n s) := by
  obtain ⟨_, _, _, e⟩ := line_isolateProbing s n
  exact ⟨by rw [e], by rw [e], fun _ => by rw [e], by rw [e], (isolateProbing_onlyLine s n).work.store⟩

theorem isolateOff_isolated : Isolated n s (isolateOff n s) := by
  have e := line_isolateOff s n
  exact ⟨by rw [e], by rw [e], fun _ => by rw [e], by rw [e], (isolateOff_onlyLine s n).work.store⟩

/-- ISOLATE of a line already off its bus (R15). -/
theorem isolateOff_eq : isolateOff n s = completeIfAny (s.line n).waiting .restoreAborted (s.setLine n { s.line n with
    state := .isolated, cause := .command, timer := .idle, probeDue := false, waiting := none }) := by
  simp [isolateOff, endWaiting]

/-- The state that an accepted ISOLATE leaves, by the state of the line (R15). -/
def isolatedState (n : LineNo) (s : State) : State :=
  match (s.line n).state with
  | .connected => reportMove arrival (isolateConnected n s)
  | .probing => reportMove arrival (isolateProbing n s)
  | _ => isolateOff n s

theorem isolateLine_accepted (hd : (s.line n).state ≠ .disabled)
    (hn : ¬((s.line n).state = .isolated ∧ (s.line n).cause = .command ∧ (s.line n).waiting = none)) :
    isolateLine n s = (isolatedState n s, bare .ok) := by
  unfold isolateLine isolatedState
  dsimp only
  cases hs : (s.line n).state with
  | connected => rfl
  | probing => rfl
  | isolated =>
    have : ¬((s.line n).cause = .command ∧ (s.line n).waiting.isNone = true) := by
      rintro ⟨cause, waiting⟩
      exact hn ⟨hs, cause, by simpa using waiting⟩
    dsimp only
    rw [if_neg this]
  | locked => rfl
  | disabled => exact absurd hs hd

theorem isolatedState_isolated : Isolated n s (isolatedState n s) := by
  unfold isolatedState; split
  · next h => exact (isolateConnected_isolated s n h).reported
  · exact (isolateProbing_isolated s n).reported
  · exact isolateOff_isolated s n

/-- A move that outlasts the line is not reported by ISOLATE (R7). -/
theorem isolateConnected_reported (hm : s.moveOutlasts n = true) (hl : s.learnsOn n = false) :
    reportMove arrival (isolateConnected n s) = isolateConnected n s := by
  refine reportMove_idle _ _ ?_
  rw [isolateConnected_eq s n hl]
  exact moveAfter_ne s n .off hm

theorem isolateProbing_reported (hm : s.moveOutlasts n = true) (hl : s.learnsOn n = false) :
    reportMove arrival (isolateProbing n s) = isolateProbing n s := by
  refine reportMove_idle _ _ ?_
  rw [isolateProbing_eq s n hl, (completeIfAny_same _ _ _).move]
  exact moveAfter_ne s n .off hm

theorem isolatedState_move (hm : s.moveOutlasts n = true) (hl : s.learnsOn n = false) :
    (isolatedState n s).move = s.move ∨ (isolatedState n s).move = s.move.map fun l => l.filter fun m => m ≠ n := by
  unfold isolatedState; split
  · rw [isolateConnected_reported s n hm hl, isolateConnected_eq s n hl]
    exact moveAfter_cases s n .off
  · rw [isolateProbing_reported s n hm hl, isolateProbing_eq s n hl, (completeIfAny_same _ _ _).move]
    exact moveAfter_cases s n .off
  · rw [isolateOff_eq, (completeIfAny_same _ _ _).move]
    exact .inl rfl

end Sys2Proof.Machine

open Sys2Proof.Machine in
/-- Settles O25: both requests write one record, and a standby is then offered to the changeover queue. -/
theorem enableRequestsBringASubjectIntoSupervision : Obligations.EnableRequestsBringASubjectIntoSupervision := by
  refine ⟨fun p tag n s ht => ⟨fun h => ?_, fun h u hu => ?_⟩, fun p tag k s ht => ⟨fun h => ?_, fun h u hu => ?_⟩⟩
  · refine (lineRequest_taken s n ht enableLine).trans ?_
    simp [enableLine, h, bare]
  · refine (lineRequest_taken s n ht enableLine).trans ?_
    rw [enableLine_disabled s n h, hu, brought_eq n]
    rfl
  · refine (ampRequest_taken s k ht enableAmp).trans ?_
    simp [enableAmp, h, bare]
  · refine (ampRequest_taken s k ht enableAmp).trans ?_
    have brought : ampBrought k s = u := by
      rw [hu, ampBrought]
      cases (s.amp k).cfg.role <;> rfl
    rw [enableAmp_disabled s k h, brought]
    rfl

open Sys2Proof.Machine in
/-- Settles O23, by the state of the line: each of the three operations of ISOLATE as one record written, with the move that
is waited for reported only where the order ends it. -/
theorem isolateTakesALineOffByCommand : Obligations.IsolateTakesALineOffByCommand := by
  intro p tag n s ht
  have taken : exec (.isolate p tag (linePayload n)) s =
      .next ((isolateLine n s).1.answer p (isolateLine n s).2) := lineRequest_taken s n ht isolateLine
  rw [taken]
  refine ⟨fun h => by simp [isolateLine, h, bare], fun ⟨hs, hc, hw⟩ => by simp [isolateLine, hs, hc, hw, bare],
    fun hd hn => ?_⟩
  rw [isolateLine_accepted s n hd hn]
  have common := isolatedState_isolated s n
  refine ⟨_, rfl, by simp [bare], common.state, common.cause, common.waiting, common.retryCount, common.store,
    fun hs => ?_, fun hm hl => ⟨fun hs => ?_, fun hs => ?_, ?_⟩⟩
  · rw [← isolateOff_eq]
    obtain hs | hs := hs <;> simp [isolatedState, hs, bare]
  · have quiet : isolatedState n s = isolateConnected n s := by
      simp only [isolatedState, hs, isolateConnected_reported s n hm hl]
    rw [quiet, isolateConnected_eq s n hl]
    rfl
  · have quiet : isolatedState n s = isolateProbing n s := by
      simp only [isolatedState, hs, isolateProbing_reported s n hm hl]
    rw [quiet, isolateProbing_eq s n hl]
    simp [completeIfAny_eq, bare]
  · exact isolatedState_move s n hm hl
end

section
/-! PROOFS. RESTORE as an exact next state, with the start of a probe (O24). -/

namespace Sys2Proof.Machine

variable (s : State) (n : LineNo) (p : Port) (tag : Byte)

/-! ### Arrivals while a measurement is in flight (R32) -/

theorem arrival_inFlight (h : s.chan.inFlight.isSome) : arrival s = s := by simp [arrival, h]

theorem placeVerify_inFlight (x : Subject) (h : s.chan.inFlight.isSome) :
    placeVerify arrival x s = placeVerify id x s := by
  unfold placeVerify; split
  · rfl
  · exact arrival_inFlight _ h

/-! ### The start of a probe (R11) -/

/-- The record of a line whose probe has started (R11). -/
def Line.probing (l : Line) : Line :=
  { l.sentTo .test with
    state := .probing, cause := .noCause, zf := none, deviation := none, passCount := 0, timer := .idle, probeDue := false }

/-- The start of a probe of a line with no learn job, up to its place in the verify queue (R11). -/
theorem probeStarted_eq (h : s.learnsOn n = false) : probeStarted n s =
    { s.setLine n (s.line n).probing with move := s.moveAfter n .test } := by
  unfold probeStarted Line.probing
  simp only [orderSelector_quiet s n .test h]
  simp [State.setLine]

/-- The start of a probe while a measurement is in flight (R11, R25). -/
theorem startProbe_inFlight (hl : s.learnsOn n = false) (hf : s.chan.inFlight.isSome) : startProbe arrival n s =
    { s.setLine n (s.line n).probing with
      chan := { s.chan with
        verify := if .line n ∈ s.chan.verify then s.chan.verify else s.chan.verify ++ [.line n] }
      move := s.moveAfter n .test } := by
  rw [startProbe_eq, probeStarted_eq s n hl]
  exact (placeVerify_inFlight { s.setLine n (s.line n).probing with move := s.moveAfter n .test } _ hf).trans
    (placeVerify_id _ _)

/-! ### RESTORE (R16) -/

/-- The record of a line that takes a RESTORE (R16). -/
def State.restoring (s : State) (n : LineNo) (p : Port) (tag : Byte) : Line :=
  { s.line n with retryCount := 0, timer := .idle, waiting := some (s.requester p tag .restore) }

theorem acceptRestore_starts (h : (s.runs && !s.emergency) = true) : acceptRestore p tag n s =
    startProbe arrival n (s.setLine n (s.restoring n p tag)) := by
  have runs : s.runs = true ∧ (!s.emergency) = true := by simpa using h
  unfold acceptRestore
  exact if_pos runs

theorem acceptRestore_due (h : (s.runs && !s.emergency) = false) : acceptRestore p tag n s =
    s.setLine n { s.restoring n p tag with probeDue := true } := by
  have rests : ¬(s.runs = true ∧ (!s.emergency) = true) := by simpa using h
  unfold acceptRestore
  refine (if_neg rests).trans ?_
  simp [State.restoring]

/-- What every accepted RESTORE leaves of the line, however its move and the search end (R16). -/
structure Restoring (n : LineNo) (p : Port) (tag : Byte) (s t : State) : Prop where
  waiting : (t.line n).waiting = some ⟨p, tag, (s.port p).session, .restore⟩
  retryCount : (t.line n).retryCount = 0
  probeDue : (t.line n).probeDue = (!(s.runs && !s.emergency))
  state : (t.line n).state = (if s.runs && !s.emergency then .probing else (s.line n).state)

variable {s n p tag} in
theorem Restoring.kept {u t : State} (h : Restoring n p tag s u) (k : KeepsLines u t) : Restoring n p tag s t := by
  obtain ⟨_, _, _, _, _, _, e⟩ := k n
  exact ⟨by rw [e]; exact h.waiting, by rw [e]; exact h.retryCount, by rw [e]; exact h.probeDue, by rw [e]; exact h.state⟩

theorem acceptRestore_restoring : Restoring n p tag s (acceptRestore p tag n s) := by
  cases h : s.runs && !s.emergency with
  | true =>
    rw [acceptRestore_starts s n p tag h, startProbe_eq]
    refine .kept ?_ (placeVerify_keeps arrival_keeps _ _)
    obtain ⟨_, _, _, e⟩ := line_probeStarted (s.setLine n (s.restoring n p tag)) n
    rw [line_setLine_same] at e
    exact ⟨by rw [e]; rfl, by rw [e]; rfl, by rw [e, h]; rfl, by rw [e, h]; rfl⟩
  | false =>
    rw [acceptRestore_due s n p tag h]
    exact ⟨by rw [line_setLine_same]; rfl, by rw [line_setLine_same]; rfl, by rw [line_setLine_same, h]; rfl,
      by rw [line_setLine_same, h]; rfl⟩

/-- The state that an accepted RESTORE leaves, before the reply (R16). -/
def restored (p : Port) (tag : Byte) (n : LineNo) (s : State) : State :=
  reportMove arrival (accept p (acceptRestore p tag n s)).1

theorem restoreLine_accepted (hs : (s.line n).state = .isolated ∨ (s.line n).state = .locked)
    (hw : (s.line n).waiting = none) :
    restoreLine p tag n s = (restored p tag n s, (accept p (acceptRestore p tag n s)).2) := by
  obtain hs | hs := hs <;> simp [restoreLine, hs, hw, restored, withReport]

/-- The acceptance of a long request with its reply sent (R143, R174). -/
theorem accept_answer (s : State) (p : Port) : (accept p s).1.answer p (accept p s).2 =
    s.setPort p { s.port p with
      inFlight := (s.port p).inFlight + 1
      reply := some ⟨.accepted, [BitVec.ofNat 8 ((s.port p).outstanding + 1)]⟩ } := by
  rw [accept_eq]
  cases p <;> rfl

/-- An accepted RESTORE whose move is not ended by it, with its reply sent (R16). -/
theorem restored_answer (h : (acceptRestore p tag n s).move ≠ some []) :
    (restored p tag n s).answer p (accept p (acceptRestore p tag n s)).2 =
      (acceptRestore p tag n s).setPort p { (acceptRestore p tag n s).port p with
        inFlight := ((acceptRestore p tag n s).port p).inFlight + 1
        reply := some ⟨.accepted, [BitVec.ofNat 8 (((acceptRestore p tag n s).port p).outstanding + 1)]⟩ } := by
  have idle : restored p tag n s = (accept p (acceptRestore p tag n s)).1 := by
    refine reportMove_idle _ _ ?_
    rw [accept_eq]
    exact h
  rw [idle, accept_answer]

/-- The probe that a RESTORE starts while a measurement is in flight (R11, R16). -/
theorem acceptRestore_inFlight (hr : (s.runs && !s.emergency) = true) (hl : s.learnsOn n = false)
    (hf : s.chan.inFlight.isSome) : acceptRestore p tag n s =
      { s.setLine n { (s.line n).sentTo .test with
          state := .probing, cause := .noCause, zf := none, deviation := none, passCount := 0, timer := .idle
          probeDue := false, retryCount := 0, waiting := some ⟨p, tag, (s.port p).session, .restore⟩ } with
        chan := { s.chan with
          verify := if .line n ∈ s.chan.verify then s.chan.verify else s.chan.verify ++ [.line n] }
        move := s.moveAfter n .test } := by
  have probing : (s.restoring n p tag).probing = { (s.line n).sentTo .test with
      state := .probing, cause := .noCause, zf := none, deviation := none, passCount := 0, timer := .idle
      probeDue := false, retryCount := 0, waiting := some ⟨p, tag, (s.port p).session, .restore⟩ } := by
    unfold Line.probing State.restoring Line.sentTo
    by_cases h : (s.line n).selector = .test <;> simp [h, State.requester]
  have moved : (s.setLine n (s.restoring n p tag)).moveAfter n .test = s.moveAfter n .test := by
    simp [State.moveAfter, State.restoring]
  rw [acceptRestore_starts s n p tag hr, startProbe_inFlight (s.setLine n (s.restoring n p tag)) n hl hf, moved, line_setLine_same, probing,
    setLine_setLine]
  rfl

end Sys2Proof.Machine

open Sys2Proof.Machine in
/-- Settles O24: RESTORE as one record written, and the start of a probe as another. -/
theorem restoreStartsAProbeOrMarksItDue : Obligations.RestoreStartsAProbeOrMarksItDue := by
  intro p tag n s ht
  have taken : exec (.restore p tag (linePayload n)) s =
      .next ((restoreLine p tag n s).1.answer p (restoreLine p tag n s).2) := lineRequest_taken s n ht (restoreLine p tag)
  rw [taken]
  refine ⟨fun h => by simp [restoreLine, h, bare], fun h => ?_, fun hs hw => ?_⟩
  · have noChange : restoreLine p tag n s = (s, bare .noChange) := by
      unfold restoreLine; dsimp only
      obtain hs | hs | ⟨hd, hw⟩ := h
      · rw [hs]
      · rw [hs]
      · have waits : (s.line n).waiting.isSome = true := by simpa [Option.isSome_iff_ne_none] using hw
        cases hs : (s.line n).state with
        | disabled => exact absurd hs hd
        | _ => simp [waits]
    rw [noChange]
    rfl
  · rw [restoreLine_accepted s n p tag hs hw]
    have common : Restoring n p tag s (restored p tag n s) :=
      ((acceptRestore_restoring s n p tag).kept (by rw [accept_eq]; exact .of_lines rfl)).kept
        (reportMove_keeps arrival_keeps _)
    refine ⟨_, rfl, by rw [port_answer_same, accept_eq]; rfl, common.waiting, common.retryCount, common.probeDue,
      common.state, fun hm hl => ⟨fun hr => ?_, fun hr hf => ?_⟩⟩
    · have due := acceptRestore_due s n p tag hr
      rw [restored_answer s n p tag (by rw [due]; exact (move_of_outlasts s n hm).1), due]
      rfl
    · have starts := acceptRestore_inFlight s n p tag hr hl hf
      rw [restored_answer s n p tag (by rw [starts]; exact moveAfter_ne s n .test hm), starts]
      exact ⟨rfl, moveAfter_cases s n .test⟩
end

section
/-! PROOFS. What the fault table after a raise or a clear depends on, and what either leaves as it stands. -/

namespace Sys2Proof.Machine

variable {s t : State} (k : FaultKey) (snap : Option Snapshot)

/-! ### The table as a function of the table, the listening ports and the round number -/

/-- Two states that the fault table cannot tell apart: the same table, listening ports and round number (R111 to R124). -/
structure SameTable (s t : State) : Prop where
  faults : t.faults = s.faults
  listeners : t.listeners = s.listeners
  round : t.chan.roundNumber = s.chan.roundNumber

theorem SameTable.refl (s : State) : SameTable s s := ⟨rfl, rfl, rfl⟩

theorem SameTable.trans {u : State} (h : SameTable s t) (g : SameTable t u) : SameTable s u :=
  ⟨g.faults.trans h.faults, g.listeners.trans h.listeners, g.round.trans h.round⟩

theorem SameTable.symm (h : SameTable s t) : SameTable t s := ⟨h.faults.symm, h.listeners.symm, h.round.symm⟩

theorem listeners_of_port {s t : State} (h : ∀ p, (t.port p).listening = (s.port p).listening) :
    t.listeners = s.listeners := by
  have a := h .a; have b := h .b; have m := h .m
  simp only [State.port, PerPort.get] at a b m
  simp [State.listeners, a, b, m]

theorem notice_table (c : ClassNo) (marked : PerPort Bool) (s : State) : SameTable s (notice c marked s) :=
  have same := notice_same s c marked
  ⟨same.faults, listeners_of_port fun p => by rw [port_notice], by rw [same.chan]⟩

theorem transition_table (h : SameTable s t) (r : FaultRecord) (marked : PerPort Bool) :
    SameTable (transition r marked s) (transition r marked t) := by
  rw [transition_eq, transition_eq]
  have written : SameTable { s with faults := s.faults.stamped r } { t with faults := t.faults.stamped r } :=
    ⟨by rw [h.faults], h.listeners, h.round⟩
  exact ((notice_table _ _ _).symm.trans written).trans (notice_table _ _ _)

theorem createRecord_table (h : SameTable s t) (first : Word) :
    SameTable (createRecord k snap first s) (createRecord k snap first t) := by
  unfold createRecord
  rw [h.listeners]
  exact transition_table h _ _

theorem raise_table (h : SameTable s t) : SameTable (raise k snap s) (raise k snap t) := by
  unfold raise
  rw [h.faults, h.listeners, h.round]
  split
  · split
    · exact h
    · exact h
    · exact transition_table h _ _
    · exact transition_table h _ _
  · split
    · exact createRecord_table k snap h _
    · exact ⟨by simp only [deferKey, h.faults, h.round], h.listeners, h.round⟩

theorem dropDeferred_table (h : SameTable s t) : SameTable (dropDeferred k s) (dropDeferred k t) :=
  ⟨by simp only [dropDeferred, h.faults], h.listeners, h.round⟩

theorem checkRemoval_table (h : SameTable s t) : SameTable (checkRemoval k s) (checkRemoval k t) := by
  have released : ∀ {u v : State}, SameTable u v → SameTable (release u) (release v) := by
    intro u v g
    unfold release
    rw [g.faults]
    split
    · exact g
    · exact createRecord_table _ _ (dropDeferred_table _ g) _
  unfold checkRemoval
  rw [h.faults]
  split
  · split
    · exact released ⟨rfl, h.listeners, h.round⟩
    · exact h
  · exact h

theorem clear_table (h : SameTable s t) : SameTable (clear k snap s) (clear k snap t) := by
  unfold clear
  rw [h.faults, h.listeners]
  split
  · split
    · exact transition_table h _ _
    · exact checkRemoval_table _ (transition_table h _ _)
    · exact h
    · exact h
  · split
    · exact dropDeferred_table _ h
    · exact h

/-! ### Exact frames -/

section FreeUses
variable (s : State)

@[simp] theorem freeUses_transition (r : FaultRecord) (marked : PerPort Bool) :
    (transition r marked s).freeUses = s.freeUses := by
  have kept : ∀ (u : State) (p : Port) (c : ClassNo), (if marked.get p then noticePort c p u else u).freeUses = u.freeUses := by
    intro u p c
    split
    · unfold noticePort; split <;> rfl
    · rfl
  simp only [transition_eq, notice, allPorts, List.foldl, kept]

@[simp] theorem freeUses_raise : (raise k snap s).freeUses = s.freeUses := by
  obtain ⟨r, -, -, e⟩ | ⟨r, -, -, e⟩ | ⟨-, -, e⟩ | ⟨-, -, e⟩ := raise_cases s k snap <;> rw [e]
  · exact freeUses_transition s _ _
  · exact freeUses_transition s _ _
  · rfl

@[simp] theorem freeUses_checkRemoval : (checkRemoval k s).freeUses = s.freeUses := by
  obtain e | ⟨r, -, -, e⟩ := checkRemoval_cases s k <;> rw [e]
  unfold release; split
  · rfl
  · exact freeUses_transition _ _ _

@[simp] theorem freeUses_clear : (clear k snap s).freeUses = s.freeUses := by
  obtain ⟨r, -, -, e⟩ | ⟨r, -, -, e⟩ | ⟨r, -, -, e⟩ | ⟨-, -, e⟩ | ⟨-, -, e⟩ := clear_cases s k snap <;> rw [e]
  · exact freeUses_transition s _ _
  · rw [freeUses_checkRemoval, freeUses_transition]
  · rfl

end FreeUses

theorem SameButTable.exact (h : SameButTable s t) (hf : t.freeUses = s.freeUses) :
    t = { s with faults := t.faults, ports := t.ports } := by
  cases s; cases t
  obtain ⟨rfl, rfl, rfl, rfl, rfl, rfl, rfl, rfl⟩ := h
  simp only at hf
  rw [hf]

theorem raise_exact (s : State) : raise k snap s =
    { s with faults := (raise k snap s).faults, ports := (raise k snap s).ports } :=
  (raise_same s k snap).exact (freeUses_raise k snap s)

theorem clear_exact (s : State) : clear k snap s =
    { s with faults := (clear k snap s).faults, ports := (clear k snap s).ports } :=
  (clear_same s k snap).exact (freeUses_clear k snap s)

end Sys2Proof.Machine
end

section
/-! PROOFS. CONFIGURE_LINE: the record it leaves field by field, what it sends to the fault table, and what it leaves as it
stands (O28, and the second half of O26). -/

namespace Sys2Proof.Machine

/-! ### The configuration written (R1) -/

theorem clampTo_range {lo hi v : Nat} (h : lo ≤ hi) : lo ≤ clampTo lo hi v ∧ clampTo lo hi v ≤ hi := by
  unfold clampTo; omega

theorem clampTo_id {lo hi v : Nat} (h : lo ≤ v ∧ v ≤ hi) : clampTo lo hi v = v := by
  unfold clampTo; omega

theorem lineConfigOk_clamp (c : LineConfig) : lineConfigOk c.clamp = true := by
  have low := clampTo_range (lo := 1) (hi := 999) (v := c.low) (by decide)
  have high := clampTo_range (lo := 1) (hi := 9999) (v := c.high) (by decide)
  have zref : c.clamp.zref.all (fun z => decide (1 ≤ z ∧ z ≤ 65534)) = true := by
    cases hz : c.zref with
    | none => simp [LineConfig.clamp, hz]
    | some z => simpa [LineConfig.clamp, hz] using clampTo_range (lo := 1) (hi := 65534) (v := z) (by decide)
  have hyst : c.clamp.hyst ≤ 255 ∧ c.clamp.hyst < min c.clamp.low c.clamp.high := by
    have := clampTo_range (lo := 0) (hi := 255) (v := c.hyst) (by decide)
    simp only [LineConfig.clamp]
    omega
  simp only [lineConfigOk, Bool.and_eq_true, decide_eq_true_eq, zref, hyst, and_self, and_true]
  refine ⟨⟨⟨⟨⟨⟨⟨⟨⟨?_, low⟩, high⟩, ?_⟩, ?_⟩, ?_⟩, ?_⟩, ?_⟩, ?_⟩, ?_⟩
  · exact clampTo_range (by decide)
  · exact (clampTo_range (by decide)).2
  · exact (clampTo_range (by decide)).2
  · exact clampTo_range (by decide)
  · exact clampTo_range (by decide)
  · exact clampTo_range (by decide)
  · exact clampTo_range (by decide)
  · exact clampTo_range (by decide)

/-- A configuration within its ranges is written as it is (R1). -/
theorem clamp_of_ok {c : LineConfig} (h : lineConfigOk c = true) : c.clamp = c := by
  simp only [lineConfigOk, Bool.and_eq_true, decide_eq_true_eq] at h
  obtain ⟨⟨⟨⟨⟨⟨⟨⟨⟨⟨⟨gain, zref⟩, low⟩, high⟩, hyst⟩, floor⟩, shift⟩, raise⟩, clear⟩, threshold⟩, delay⟩, limit⟩ := h
  have same : c.zref.map (clampTo 1 65534) = c.zref := by
    cases hz : c.zref with
    | none => rfl
    | some z =>
      rw [hz] at zref
      simpa using clampTo_id (by simpa using zref)
  have below : min (clampTo 0 255 c.hyst) (min c.low c.high - 1) = c.hyst := by
    rw [clampTo_id ⟨Nat.zero_le _, hyst.1⟩]; omega
  simp only [LineConfig.clamp, clampTo_id gain, same, clampTo_id low, clampTo_id high, below,
    clampTo_id ⟨Nat.zero_le _, floor⟩, clampTo_id ⟨Nat.zero_le _, shift⟩, clampTo_id raise, clampTo_id clear,
    clampTo_id threshold, clampTo_id delay, clampTo_id limit]

theorem clamp_eq_iff (c : LineConfig) : c.clamp = c ↔ lineConfigOk c = true :=
  ⟨fun h => h ▸ lineConfigOk_clamp c, clamp_of_ok⟩

/-! ### The record field by field (R2) -/

/-- CONFIGURE_LINE changes an earth setting or a count (R68). -/
def earthChanged (old new : LineConfig) : Bool :=
  new.earthCheck ≠ old.earthCheck || new.threshold ≠ old.threshold || new.raiseCount ≠ old.raiseCount
    || new.clearCount ≠ old.clearCount

theorem rereferenced_eq (l : Line) (old : LineConfig) : l.rereferenced old =
    { l with
      candidate := if l.cfg.zref = old.zref then l.candidate else none
      count := if l.cfg.zref = old.zref then l.count else 0
      deviation := if l.cfg.zref = old.zref then l.deviation else deviationOf l.cfg.zref l.zf } := by
  unfold Line.rereferenced; split <;> simp [*]

theorem reearthed_eq (l : Line) (old : LineConfig) : l.reearthed old =
    { l with
      earthCandidate := if earthChanged old l.cfg then none else l.earthCandidate
      earthCount := if earthChanged old l.cfg then 0 else l.earthCount
      earth := if earthTurnedOff old l.cfg then .normal else l.earth
      lastLc := if earthTurnedOff old l.cfg then none else l.lastLc } := by
  have changed : (l.cfg.earthCheck ≠ old.earthCheck ∨ l.cfg.threshold ≠ old.threshold ∨
      l.cfg.raiseCount ≠ old.raiseCount ∨ l.cfg.clearCount ≠ old.clearCount) ↔ earthChanged old l.cfg = true := by
    simp [earthChanged, or_assoc]
  have off : (old.earthCheck = true ∧ (!l.cfg.earthCheck) = true) ↔ earthTurnedOff old l.cfg = true := by
    simp [earthTurnedOff]
  unfold Line.reearthed
  simp only [changed]
  cases earthChanged old l.cfg with
  | false =>
    simp only [Bool.false_eq_true, ↓reduceIte, off]
    cases earthTurnedOff old l.cfg <;> rfl
  | true =>
    simp only [↓reduceIte, off]
    cases earthTurnedOff old l.cfg <;> rfl

/-- The retry timer of a line isolated for protection after CONFIGURE_LINE, below its limit (R2.4). -/
def Line.retimed (l : Line) (runs : Bool) : RetryTimer :=
  if l.cfg.autoRetry = false then .idle
  else if l.timer = .idle then
    if runs then .running (l.cfg.retryDelay * 1000) else .frozen (l.cfg.retryDelay * 1000)
  else l.timer

theorem reretried_other {l : Line} (runs : Bool) (h : ¬(l.state = .isolated ∧ l.cause = .protective)) :
    l.reretried runs = l := by
  unfold Line.reretried
  exact if_pos (not_and_or.mp h)

theorem reretried_locks {l : Line} (runs : Bool) (h : l.state = .isolated ∧ l.cause = .protective)
    (hl : l.cfg.retryLimit ≤ l.retryCount) :
    l.reretried runs = { l with state := .locked, cause := .lockout, timer := .idle } := by
  simp [Line.reretried, h, hl]

theorem reretried_below {l : Line} (runs : Bool) (h : l.state = .isolated ∧ l.cause = .protective)
    (hl : l.retryCount < l.cfg.retryLimit) : l.reretried runs = { l with timer := l.retimed runs } := by
  have isolated : ¬(l.state ≠ .isolated ∨ l.cause ≠ .protective) := by simp [h]
  unfold Line.reretried Line.retimed
  rw [if_neg isolated, if_neg (Nat.not_le.mpr hl)]
  cases l.cfg.autoRetry with
  | false => rfl
  | true =>
    by_cases ht : l.timer = .idle
    · simp [ht]
    · simp [ht]

/-- The retry part of CONFIGURE_LINE touches state, cause and timer alone (R2.4). -/
theorem reretried_keeps (l : Line) (runs : Bool) : ∃ st c u, l.reretried runs = { l with state := st, cause := c, timer := u } := by
  by_cases h : l.state = .isolated ∧ l.cause = .protective
  · by_cases hl : l.cfg.retryLimit ≤ l.retryCount
    · exact ⟨_, _, _, reretried_locks runs h hl⟩
    · exact ⟨l.state, l.cause, _, reretried_below runs h (Nat.lt_of_not_le hl)⟩
  · exact ⟨l.state, l.cause, l.timer, reretried_other runs h⟩

/-- The record of a line written with a new configuration, up to its retry timer (R1, R2, R68). -/
def Line.written (l : Line) (c : LineConfig) (current : AmpNo) : Line :=
  { l with
    cfg := c, current := current
    candidate := if c.zref = l.cfg.zref then l.candidate else none
    count := if c.zref = l.cfg.zref then l.count else 0
    deviation := if c.zref = l.cfg.zref then l.deviation else deviationOf c.zref l.zf
    earthCandidate := if earthChanged l.cfg c then none else l.earthCandidate
    earthCount := if earthChanged l.cfg c then 0 else l.earthCount
    earth := if earthTurnedOff l.cfg c then .normal else l.earth
    lastLc := if earthTurnedOff l.cfg c then none else l.lastLc }

theorem configured_eq (l : Line) (c : LineConfig) (current : AmpNo) (runs : Bool) :
    l.configured c current runs = (l.written c current).reretried runs := by
  unfold Line.configured
  rw [rereferenced_eq, reearthed_eq]
  rfl

/-! ### What CONFIGURE_LINE sends and what it leaves (R2, R66) -/

/-- All but the lines, the fault table, the ports and the confirm queue stands. -/
def ConfigFrame (s t : State) : Prop :=
  t = { s with
    lines := t.lines, faults := t.faults, ports := t.ports, chan := { s.chan with confirm := t.chan.confirm } }

variable {s t : State}

theorem ConfigFrame.refl (s : State) : ConfigFrame s s := rfl

theorem ConfigFrame.trans {u : State} (h : ConfigFrame s t) (g : ConfigFrame t u) : ConfigFrame s u := by
  unfold ConfigFrame at h g ⊢
  rw [h] at g
  exact g

theorem setLine_configFrame (s : State) (n : LineNo) (l : Line) : ConfigFrame s (s.setLine n l) := rfl

theorem raise_configFrame (k : FaultKey) (snap : Option Snapshot) (s : State) : ConfigFrame s (raise k snap s) := by
  unfold ConfigFrame; rw [raise_exact]

theorem clear_configFrame (k : FaultKey) (snap : Option Snapshot) (s : State) : ConfigFrame s (clear k snap s) := by
  unfold ConfigFrame; rw [clear_exact]

/-- The part of CONFIGURE_LINE that a changed reference causes: what it writes, then what it sends (R2.2). -/
theorem configureReference_eq (n : LineNo) (old : LineConfig) (s : State) : configureReference n old s =
    let u := { s.setLine n ((s.line n).rereferenced old) with
      chan := { s.chan with
        confirm := if (s.line n).cfg.zref = old.zref then s.chan.confirm else s.chan.confirm.filter (· ≠ .line n) } }
    if (s.line n).cfg.zref = old.zref ∨ (s.line n).state = .disabled then u
    else if (s.line n).cfg.zref = none then raise (.uncalibrated n) none u
    else clear (.uncalibrated n) none u := by
  unfold configureReference Line.rereferenced
  by_cases hz : (s.line n).cfg.zref = old.zref
  · simp [hz]
  · simp only [hz, ↓reduceIte, false_or, withdrawConfirm, Option.isNone_iff_eq_none]
    rfl

theorem configureReference_frame (n : LineNo) (old : LineConfig) (s : State) :
    ConfigFrame s (configureReference n old s) := by
  have written : ∀ c l, ConfigFrame s { s.setLine n l with chan := { s.chan with confirm := c } } := fun _ _ => rfl
  rw [configureReference_eq]; dsimp only
  split
  · exact written _ _
  · split
    · exact (written _ _).trans (raise_configFrame _ _ _)
    · exact (written _ _).trans (clear_configFrame _ _ _)

theorem configureEarth_frame (n : LineNo) (old : LineConfig) (s : State) : ConfigFrame s (configureEarth n old s) := by
  rw [configureEarth_eq]; dsimp only
  split
  · exact (setLine_configFrame s n _).trans (clear_configFrame _ _ _)
  · exact setLine_configFrame s n _

/-- The retry part writes one record (R2.4). -/
theorem configureRetry_eq (n : LineNo) (s : State) :
    configureRetry n s = s.setLine n ((s.line n).reretried s.runs) := by
  unfold configureRetry Line.reretried; dsimp only
  split
  · simp
  · split
    · rfl
    · split
      · rfl
      · split
        · rfl
        · simp

theorem applyLineConfig_frame (n : LineNo) (c : LineConfig) (s : State) : ConfigFrame s (applyLineConfig n c s) := by
  unfold applyLineConfig; dsimp only
  rw [configureRetry_eq]
  exact (setLine_configFrame s n _).trans <| (configureReference_frame n _ _).trans <|
    (configureEarth_frame n _ _).trans (setLine_configFrame _ n _)

/-- What a changed reference sends: UNCALIBRATED raised for an enabled line that has lost its reference, cleared for one that
has got another (R2.2). -/
def referenceSent (n : LineNo) (c : LineConfig) (s : State) : State :=
  if c.zref = (s.line n).cfg.zref ∨ (s.line n).state = .disabled then s
  else if c.zref = none then raise (.uncalibrated n) none s
  else clear (.uncalibrated n) none s

/-- What CONFIGURE_LINE sends to the fault table (R2, R66). -/
theorem applyLineConfig_faults (n : LineNo) (c : LineConfig) (s : State) : (applyLineConfig n c s).faults =
    (if earthTurnedOff (s.line n).cfg c then clear (.earthLeak n) none (referenceSent n c s)
      else referenceSent n c s).faults := by
  have view : ∀ l x, SameTable s { s.setLine n l with chan := { s.chan with confirm := x } } := fun _ _ => ⟨rfl, rfl, rfl⟩
  have reference : ∀ l : Line, l.cfg = c → l.state = (s.line n).state →
      SameTable (referenceSent n c s) (configureReference n (s.line n).cfg (s.setLine n l)) := by
    intro l hc hs
    rw [configureReference_eq, line_setLine_same, setLine_setLine, hc, hs]
    unfold referenceSent; dsimp only
    split
    · exact view _ _
    · split
      · exact raise_table _ _ (view _ _)
      · exact clear_table _ _ (view _ _)
  unfold applyLineConfig; dsimp only
  have sent := reference { s.line n with cfg := c, current := (s.amp c.home).carrying } rfl rfl
  rw [configureRetry_eq, configureEarth_eq, line_configureReference, line_setLine_same]
  generalize configureReference n (s.line n).cfg _ = u at sent ⊢
  have kept : ∀ l : Line, (l.rereferenced (s.line n).cfg).cfg = l.cfg := fun l => by rw [rereferenced_eq]
  rw [kept]
  dsimp only
  have written : ∀ l, SameTable (referenceSent n c s) (u.setLine n l) := fun l => sent.trans ⟨rfl, rfl, rfl⟩
  split
  · exact (clear_table _ _ (written _)).faults
  · exact sent.faults

/-- The confirm queue after CONFIGURE_LINE: a changed reference takes the line out (R2.2). -/
theorem applyLineConfig_confirm (n : LineNo) (c : LineConfig) (s : State) : (applyLineConfig n c s).chan.confirm =
    if c.zref = (s.line n).cfg.zref then s.chan.confirm else s.chan.confirm.filter (· ≠ .line n) := by
  have earth : ∀ u old, (configureEarth n old u).chan = u.chan := by
    intro u old
    rw [configureEarth_eq]; dsimp only
    split
    · rw [(clear_same _ _ _).chan]; rfl
    · rfl
  unfold applyLineConfig; dsimp only
  rw [configureRetry_eq]
  change (configureEarth n _ (configureReference n _ _)).chan.confirm = _
  rw [earth, configureReference_eq, line_setLine_same]
  dsimp only
  split
  · rfl
  · split
    · rw [(raise_same _ _ _).chan]
      rfl
    · rw [(clear_same _ _ _).chan]
      rfl

/-! ### The request (R1) -/

theorem configureLine_accepted (payload : List Byte) (n : LineNo) (s : State) (home : AmpNo) (he : s.emergency = false)
    (hc : (s.line n).state ≠ .connected) (hp : (s.line n).state ≠ .probing) (hh : byteAt payload 1 = home.val)
    (hr : (s.amp home).cfg.role = .duty) : ∀ asked, asked = lineFieldsAt payload 1 home (s.line n).cfg.enabled →
    configureLine payload n s =
      (applyLineConfig n asked.clamp s, bare (if lineConfigOk asked then .ok else .clamped)) := by
  rintro asked rfl
  have place : ampNo? (byteAt payload 1) = some home := by simp [ampNo?, hh]
  simp [configureLine, he, hc, hp, place, hr, clamp_eq_iff]

/-- A request that names line `n` in a longer payload is answered with what it does to that line. -/
theorem configureLine_taken (payload : List Byte) (n : LineNo) (s : State) (p : Port) (tag : Byte)
    (ht : s.takes .configureLine p payload) (hn : byteAt payload 0 = n.val) :
    exec (.configureLine p tag payload) s =
      .next ((configureLine payload n s).1.answer p (configureLine payload n s).2) :=
  (takeRequest_taken s ht _).trans (by rw [onLine_eq s n hn])

end Sys2Proof.Machine

open Sys2Proof.Machine in
/-- Settles O28: each effect read off the record that the accepted configuration leaves. -/
theorem configureLineActsOnTheRuntimeFields : Obligations.ConfigureLineActsOnTheRuntimeFields := by
  intro p tag n payload s ht hn he hs hb hduty
  have hc : (s.line n).state ≠ .connected := by obtain e | e | e := hs <;> rw [e] <;> decide
  have hp : (s.line n).state ≠ .probing := by obtain e | e | e := hs <;> rw [e] <;> decide
  obtain ⟨home, hh⟩ : ∃ home : Sys2Proof.AmpNo, byteAt payload 1 = home.val := ⟨⟨_, Nat.lt_succ_of_le hb⟩, rfl⟩
  obtain ⟨c, accepted⟩ : ∃ c, ∃ r, configureLine payload n s = (applyLineConfig n c s, r) :=
    ⟨_, _, configureLine_accepted payload n s home he hc hp hh (hduty home hh.symm) _ rfl⟩
  obtain ⟨r, accepted⟩ := accepted
  refine ⟨_, configureLine_taken payload n s p tag ht hn, ?_⟩
  rw [accepted]
  have line : ((applyLineConfig n c s).answer p r).line n =
      ((s.line n).written c (s.amp c.home).carrying).reretried s.runs := by
    rw [line_answer, line_applyLineConfig, configured_eq]
  generalize hw : (s.line n).written c (s.amp c.home).carrying = w at line
  obtain ⟨st, ca, u, keeps⟩ := reretried_keeps w s.runs
  have cfg : (((applyLineConfig n c s).answer p r).line n).cfg = c := by rw [line, keeps, ← hw]; rfl
  have chan : ((applyLineConfig n c s).answer p r).chan = { s.chan with
      confirm := if c.zref = (s.line n).cfg.zref then s.chan.confirm else s.chan.confirm.filter (· ≠ .line n) } := by
    rw [← applyLineConfig_confirm n c s]
    exact congrArg State.chan (applyLineConfig_frame n c s)
  dsimp only
  rw [cfg]
  refine ⟨fun hz => ?_, fun hz => ?_, ?_, fun hch => ?_, fun hon hoff => ?_, fun hoff => ?_, fun hprot => ⟨fun hl => ?_,
    fun hl => ?_⟩, fun hprot => ?_⟩
  · rw [chan, line, keeps, ← hw]
    simp [Line.written, hz]
  · rw [chan, line, keeps, ← hw]
    simp [Line.written, hz]
  · rintro v rfl
    refine (applyLineConfig_faults n c s).trans ?_
    simp [earthTurnedOff, referenceSent]
  · have changed : earthChanged (s.line n).cfg c = true := by simpa [earthChanged, or_assoc] using hch
    rw [line, keeps, ← hw]
    simp [Line.written, changed]
  · rw [line, keeps, ← hw]
    simp [Line.written, earthTurnedOff, hon, hoff]
  · have stands : earthTurnedOff (s.line n).cfg c = false := by
      cases hto : earthTurnedOff (s.line n).cfg c with
      | false => rfl
      | true => exact absurd (by simpa [earthTurnedOff] using hto) hoff
    rw [line, keeps, ← hw]
    simp [Line.written, stands]
  · have locks := reretried_locks (l := w) s.runs (by rw [← hw]; exact hprot) (by rw [← hw]; exact hl)
    rw [line, locks]
    exact ⟨rfl, rfl, rfl⟩
  · have below := reretried_below (l := w) s.runs (by rw [← hw]; exact hprot) (by rw [← hw]; exact hl)
    rw [line, below]
    subst hw
    refine ⟨hprot.1, hprot.2, fun ha => ?_, fun ha => ?_⟩
    · exact if_pos ha
    · exact if_neg (by rw [show (Line.written _ c _).cfg.autoRetry = true from ha]; decide)
  · have other := reretried_other (l := w) s.runs (by rw [← hw]; exact hprot)
    rw [line, other, ← hw]
    exact ⟨rfl, rfl, rfl⟩
end

section
/-! PROOFS. What raises and clears leave of the ports, and the keys that a clear takes out of the table for good. -/

namespace Sys2Proof.Machine

variable {s t : State} (k : FaultKey) (snap : Option Snapshot)

/-! ### Ports that differ in their latches (R139, R140) -/

/-- The same ports but for their attention latches. -/
def SameButLatch (x y : PerPort PortState) : Prop := ∀ q, y.get q = { x.get q with latch := (y.get q).latch }

theorem SameButLatch.refl (x : PerPort PortState) : SameButLatch x x := fun _ => rfl

theorem SameButLatch.trans {x y z : PerPort PortState} (h : SameButLatch x y) (g : SameButLatch y z) : SameButLatch x z :=
  fun q => by rw [g q, h q]

/-- A completion reads no latch (R143). -/
theorem SameButLatch.handedOn {x y : PerPort PortState} (h : SameButLatch x y) (r : Option Requester)
    (o : CompletionOutcome) : SameButLatch (handedOn r o x) (handedOn r o y) := by
  cases r with
  | none => exact h
  | some r =>
    have hr := h r.port
    unfold Machine.handedOn
    dsimp only
    rw [hr]
    by_cases hc : r.session = (x.get r.port).session ∧ 0 < (x.get r.port).inFlight
    · rw [if_pos hc, if_pos hc]
      intro q
      by_cases hq : q = r.port
      · subst hq; simp
      · simp only [PerPort.get_set_ne _ _ _ _ hq]; exact h q
    · rw [if_neg hc, if_neg hc]
      exact h

theorem notice_latch (c : ClassNo) (marked : PerPort Bool) (s : State) : SameButLatch s.ports (notice c marked s).ports :=
  fun q => by
    have := port_notice s c q marked
    simp only [ports_get, this]

theorem transition_latch (r : FaultRecord) (marked : PerPort Bool) (s : State) :
    SameButLatch s.ports (transition r marked s).ports := notice_latch r.key.cls marked { s with faults := s.faults.stamped r }

theorem raise_latch (s : State) : SameButLatch s.ports (raise k snap s).ports := by
  obtain ⟨r, -, -, e⟩ | ⟨r, -, -, e⟩ | ⟨-, -, e⟩ | ⟨-, -, e⟩ := raise_cases s k snap <;> rw [e]
  · exact .refl _
  · exact transition_latch _ _ s
  · exact transition_latch _ _ s
  · exact .refl _

theorem createRecord_latch (first : Word) (s : State) : SameButLatch s.ports (createRecord k snap first s).ports :=
  transition_latch _ _ s

theorem release_latch (s : State) : SameButLatch s.ports (release s).ports := by
  unfold release
  cases pickDeferred s.faults.deferred with
  | none => exact .refl _
  | some d => exact createRecord_latch d.key d.snapshot d.firstRound (dropDeferred d.key s)

theorem checkRemoval_latch (s : State) : SameButLatch s.ports (checkRemoval k s).ports := by
  obtain e | ⟨r, -, -, e⟩ := checkRemoval_cases s k <;> rw [e]
  · exact .refl _
  · exact release_latch { s with faults.records := s.faults.records.filter (·.key ≠ k) }

theorem clear_latch (s : State) : SameButLatch s.ports (clear k snap s).ports := by
  obtain ⟨r, -, -, e⟩ | ⟨r, -, -, e⟩ | ⟨r, -, -, e⟩ | ⟨-, -, e⟩ | ⟨-, -, e⟩ := clear_cases s k snap <;> rw [e]
  · exact transition_latch _ _ s
  · exact (transition_latch _ _ s).trans (checkRemoval_latch k _)
  · exact .refl _
  · exact .refl _
  · exact .refl _

theorem foldClears_latch (keys : List FaultKey) (s : State) :
    SameButLatch s.ports (keys.foldl (fun s k => clear k none s) s).ports := by
  induction keys generalizing s with
  | nil => exact .refl _
  | cons k keys ih => exact (clear_latch k none s).trans (ih _)

/-! ### Keys that are off (R109, R115, R117) -/

/-- No key stands twice, in the table or in the deferred list (R112, R116). -/
def FaultTable.distinct (t : FaultTable) : Prop := (t.records.map (·.key) ++ t.deferred.map (·.key)).Nodup

/-- A key has no active record and is not deferred. -/
def FaultTable.off (t : FaultTable) (k : FaultKey) : Prop :=
  (∀ r ∈ t.records, r.key = k → ¬(r.lifecycle = .activeUnack ∨ r.lifecycle = .activeAck)) ∧ ∀ d ∈ t.deferred, d.key ≠ k

theorem distinct_of_tableOk (h : s.tableOk = true) : s.faults.distinct := by
  simp only [State.tableOk, Bool.and_eq_true, decide_eq_true_eq] at h
  obtain ⟨⟨⟨⟨-, distinct⟩, -⟩, -⟩, -⟩ := h
  exact distinct

theorem holdsActive_of_off {k : FaultKey} (h : s.faults.off k) : s.holdsActive k = false := by
  simp only [State.holdsActive, List.any_eq_false, Bool.and_eq_true, decide_eq_true_eq, not_and, Bool.or_eq_true]
  exact h.1

/-- The transition of a record that is in the table keeps the keys apart (R112). -/
theorem stamped_distinct {t : FaultTable} {r : FaultRecord} (h : t.distinct) (hr : r.key ∉ t.deferred.map (·.key)) :
    (t.stamped r).distinct := by
  obtain ⟨records, deferred, apart⟩ := List.nodup_append'.mp h
  have kept : (t.records.filter (·.key ≠ r.key)).map (·.key) = (t.records.map (·.key)).filter (· ≠ r.key) := by
    rw [List.filter_map]; rfl
  refine List.nodup_append'.mpr ⟨?_, deferred, ?_⟩
  · simp only [FaultTable.stamped, toTail, List.map_append, kept, List.map_cons, List.map_nil]
    refine List.nodup_append'.mpr ⟨records.filter _, List.nodup_singleton _, ?_⟩
    simp
  · simp only [FaultTable.stamped, toTail, List.map_append, kept, List.map_cons, List.map_nil]
    intro x hx hd
    rcases List.mem_append.mp hx with hx | hx
    · exact apart (List.mem_filter.mp hx).1 hd
    · rw [List.mem_singleton.mp hx] at hd
      exact hr hd

/-- A transition turns no other key on. -/
theorem stamped_off {t : FaultTable} {r : FaultRecord} {k : FaultKey} (h : t.off k)
    (hr : r.key = k → ¬(r.lifecycle = .activeUnack ∨ r.lifecycle = .activeAck)) : (t.stamped r).off k := by
  refine ⟨fun x hx e => ?_, h.2⟩
  rcases List.mem_append.mp hx with hx | hx
  · exact h.1 x (List.mem_filter.mp hx).1 e
  · rw [List.mem_singleton.mp hx] at e ⊢
    exact hr e

/-- A transition to an inactive lifecycle turns the record's own key off. -/
theorem stamped_off_same {t : FaultTable} {r : FaultRecord} (hd : r.key ∉ t.deferred.map (·.key))
    (hr : ¬(r.lifecycle = .activeUnack ∨ r.lifecycle = .activeAck)) : (t.stamped r).off r.key := by
  refine ⟨fun x hx e => ?_, fun d hx e => hd (List.mem_map.mpr ⟨d, hx, e⟩)⟩
  rcases List.mem_append.mp hx with hx | hx
  · exact absurd e (by simpa using (List.mem_filter.mp hx).2)
  · rw [List.mem_singleton.mp hx]
    exact hr

theorem mem_of_pickDeferred {l : List Deferred} {d : Deferred} (h : pickDeferred l = some d) : d ∈ l := by
  induction l generalizing d with
  | nil => cases h
  | cons x l ih =>
    unfold pickDeferred at h
    cases hp : pickDeferred l with
    | none => rw [hp] at h; cases h; simp
    | some e =>
      rw [hp] at h
      dsimp only at h
      split at h
      · cases h; exact List.mem_cons_of_mem _ (ih hp)
      · cases h; simp

/-- Keys apart, and one of them off: what a removal or a drop from the deferred list keeps. -/
theorem removed_distinct {t : FaultTable} (h : t.distinct) (p : FaultRecord → Bool) (q : Deferred → Bool) (c : Word) (f : Bool) :
    FaultTable.distinct ⟨t.records.filter p, t.deferred.filter q, c, f⟩ :=
  h.sublist ((List.filter_sublist.map _).append (List.filter_sublist.map _))

theorem removed_off {t : FaultTable} {k : FaultKey} (h : t.off k) (p : FaultRecord → Bool) (q : Deferred → Bool) (c : Word)
    (f : Bool) : FaultTable.off ⟨t.records.filter p, t.deferred.filter q, c, f⟩ k :=
  ⟨fun r hr => h.1 r (List.mem_filter.mp hr).1, fun d hd => h.2 d (List.mem_filter.mp hd).1⟩

/-- A release keeps the keys apart, and turns on a deferred key alone (R123). -/
theorem release_off (h : s.faults.distinct) : (release s).faults.distinct ∧
    ∀ k, s.faults.off k → (release s).faults.off k := by
  unfold release
  cases hp : pickDeferred s.faults.deferred with
  | none => exact ⟨h, fun _ hk => hk⟩
  | some d =>
    have waits := mem_of_pickDeferred hp
    have same : ∀ x : List FaultRecord, x.filter (fun _ => true) = x := fun x => List.filter_true x
    have dropped := removed_distinct h (fun _ => true) (fun e => decide (e.key ≠ d.key)) s.faults.counter
      (s.faults.full && !(s.faults.deferred.filter (·.key ≠ d.key)).isEmpty)
    rw [same] at dropped
    refine ⟨?_, fun k hk => ?_⟩
    · simp only [createRecord, transition_faults]
      refine stamped_distinct dropped ?_
      simp [dropDeferred]
    · simp only [createRecord, transition_faults]
      have off := removed_off hk (fun _ => true) (fun e => decide (e.key ≠ d.key)) s.faults.counter
        (s.faults.full && !(s.faults.deferred.filter (·.key ≠ d.key)).isEmpty)
      rw [same] at off
      exact stamped_off off fun e => absurd e (hk.2 d waits)

theorem checkRemoval_off (h : s.faults.distinct) : (checkRemoval k s).faults.distinct ∧
    ∀ j, s.faults.off j → (checkRemoval k s).faults.off j := by
  obtain e | ⟨r, -, -, e⟩ := checkRemoval_cases s k <;> rw [e]
  · exact ⟨h, fun _ hj => hj⟩
  · have same : s.faults.deferred.filter (fun _ => true) = s.faults.deferred := List.filter_true _
    have gone := removed_distinct h (fun x => decide (x.key ≠ k)) (fun _ => true) s.faults.counter s.faults.full
    rw [same] at gone
    obtain ⟨distinct, off⟩ := release_off (s := { s with faults.records := s.faults.records.filter (·.key ≠ k) }) gone
    refine ⟨distinct, fun j hj => off j ?_⟩
    have still := removed_off hj (fun x => decide (x.key ≠ k)) (fun _ => true) s.faults.counter s.faults.full
    rw [same] at still
    exact still

/-- The key of a record in the table is not deferred (R116). -/
theorem not_deferred {t : FaultTable} (h : t.distinct) {r : FaultRecord} (hr : r ∈ t.records) :
    r.key ∉ t.deferred.map (·.key) := by
  obtain ⟨-, -, apart⟩ := List.nodup_append'.mp h
  exact fun hd => apart (List.mem_map.mpr ⟨r, hr, rfl⟩) hd

/-- In a table with its keys apart, the record found is the only one of its key. -/
theorem find_unique {t : FaultTable} (h : t.distinct) {k : FaultKey} {r x : FaultRecord} (hr : t.find k = some r)
    (hx : x ∈ t.records) (e : x.key = k) : x = r := by
  obtain ⟨hk, hm⟩ := find_some _ _ hr
  obtain ⟨records, -, -⟩ := List.nodup_append'.mp h
  exact List.inj_on_of_nodup_map records hx hm (e.trans hk.symm)

/-- A clear turns its key off, turns no other key on, and keeps the keys apart (R117, R122, R123). -/
theorem clear_off (h : s.faults.distinct) : (clear k snap s).faults.distinct ∧ (clear k snap s).faults.off k ∧
    ∀ j, s.faults.off j → (clear k snap s).faults.off j := by
  obtain ⟨r, hf, -, e⟩ | ⟨r, hf, -, e⟩ | ⟨r, hf, hl, e⟩ | ⟨hf, -, e⟩ | ⟨hf, hd, e⟩ := clear_cases s k snap <;> rw [e]
  · obtain ⟨rfl, hm⟩ := find_some _ _ hf
    have apart := not_deferred h hm
    rw [transition_faults]
    exact ⟨stamped_distinct h apart, stamped_off_same (r := { r with
      lifecycle := .clearedUnack, snapshot := snap, marks := joinMarks r.marks s.listeners }) apart (by simp),
      fun j hj => stamped_off hj (by simp)⟩
  · obtain ⟨rfl, hm⟩ := find_some _ _ hf
    have apart := not_deferred h hm
    have closed := stamped_off_same (t := s.faults) (r := { r with
      lifecycle := .closed, snapshot := snap, marks := joinMarks r.marks s.listeners }) apart (by simp)
    have distinct := stamped_distinct (r := { r with
      lifecycle := .closed, snapshot := snap, marks := joinMarks r.marks s.listeners }) h apart
    rw [← transition_faults s _ s.listeners] at closed distinct
    obtain ⟨after, off⟩ := checkRemoval_off r.key distinct
    refine ⟨after, off _ closed, fun j hj => off j ?_⟩
    rw [transition_faults]
    exact stamped_off hj (by simp)
  · refine ⟨h, ⟨fun x hx hk => ?_, fun d hd hk => ?_⟩, fun _ hj => hj⟩
    · rw [find_unique h hf hx hk]
      obtain hl | hl := hl <;> simp [hl]
    · obtain ⟨rfl, hm⟩ := find_some _ _ hf
      exact not_deferred h hm (List.mem_map.mpr ⟨d, hd, hk⟩)
  · have none : ∀ r ∈ s.faults.records, r.key ≠ k := by simpa [FaultTable.find, List.find?_eq_none] using hf
    have same : s.faults.records.filter (fun _ => true) = s.faults.records := List.filter_true _
    have dropped := removed_distinct h (fun _ => true) (fun e => decide (e.key ≠ k)) s.faults.counter
      (s.faults.full && !(s.faults.deferred.filter (·.key ≠ k)).isEmpty)
    rw [same] at dropped
    refine ⟨dropped, ⟨fun r hr hk => absurd hk (none r hr), fun d hd => by simpa using (List.mem_filter.mp hd).2⟩,
      fun j hj => ?_⟩
    exact ⟨hj.1, fun d hd => hj.2 d (List.mem_filter.mp hd).1⟩
  · have none : ∀ r ∈ s.faults.records, r.key ≠ k := by simpa [FaultTable.find, List.find?_eq_none] using hf
    have free : ∀ d ∈ s.faults.deferred, d.key ≠ k := by simpa [FaultTable.defers, List.any_eq_false] using hd
    exact ⟨h, ⟨fun r hr hk => absurd hk (none r hr), free⟩, fun _ hj => hj⟩

/-- The clears of a list of keys turn every one of them off. -/
theorem foldClears_off (keys : List FaultKey) (h : s.faults.distinct) :
    (∀ k ∈ keys, (keys.foldl (fun s k => clear k none s) s).faults.off k) ∧
      ∀ j, s.faults.off j → (keys.foldl (fun s k => clear k none s) s).faults.off j := by
  induction keys generalizing s with
  | nil => exact ⟨fun k hk => (by cases hk), fun _ hj => hj⟩
  | cons k keys ih =>
    obtain ⟨distinct, own, others⟩ := clear_off k none h
    obtain ⟨rest, kept⟩ := ih distinct
    refine ⟨fun j hj => ?_, fun j hj => kept j (others j hj)⟩
    rcases List.mem_cons.mp hj with rfl | hj
    · exact kept _ own
    · exact rest j hj

end Sys2Proof.Machine
end

section
/-! PROOFS. What the blocks leave of the line records and their timers; DISABLE_LINE (O26). -/

namespace Sys2Proof.Machine

variable {s t u : State}

/-! ### Lines kept, with their timers (R9) -/

/-- Every line record is kept but for its place and its learn accumulator; its timer stands, or is frozen where supervision did
not run (R9). -/
structure Rested (s t : State) : Prop where
  runs : t.runs = s.runs
  line : KeepsLines s t
  timer : ∀ n, (t.line n).timer.restsAs (s.line n).timer s.runs = true

theorem restsAs_trans {a b c : RetryTimer} {r : Bool} (h : b.restsAs a r = true) (g : c.restsAs b r = true) :
    c.restsAs a r = true := by
  simp only [RetryTimer.restsAs, Bool.or_eq_true, decide_eq_true_eq, Bool.and_eq_true] at *
  obtain rfl | ⟨hr, rfl⟩ := g
  · exact h
  · obtain rfl | ⟨-, rfl⟩ := h
    · exact .inr ⟨hr, rfl⟩
    · exact .inr ⟨hr, freeze_freeze a⟩

/-- An idle timer rests idle. -/
theorem restsAs_idle {b : RetryTimer} {r : Bool} (h : b.restsAs .idle r = true) : b = .idle := by
  simp only [RetryTimer.restsAs, Bool.or_eq_true, decide_eq_true_eq, Bool.and_eq_true] at h
  obtain rfl | ⟨-, rfl⟩ := h <;> rfl

theorem Rested.of_timers (hr : t.runs = s.runs) (hl : KeepsLines s t) (ht : ∀ n, (t.line n).timer = (s.line n).timer) :
    Rested s t := ⟨hr, hl, fun n => by rw [ht]; exact restsAs_self _ _⟩

theorem Rested.of_lines (hr : t.runs = s.runs) (hl : t.lines = s.lines) : Rested s t :=
  .of_timers hr (.of_lines hl) fun n => by rw [line_congr hl]

theorem Rested.trans (h : Rested s t) (g : Rested t u) : Rested s u :=
  ⟨g.runs.trans h.runs, h.line.trans g.line, fun n => restsAs_trans (h.timer n) (by rw [← h.runs]; exact g.timer n)⟩

theorem movedLine_timer (s : State) (n : LineNo) (y : AmpNo) : (s.movedLine n y).timer = (s.line n).timer := by
  unfold State.movedLine; dsimp only; split
  · exact sentTo_timer _ _
  · rfl

/-- What every block does rests the lines, outside the line supervisor's own work on a line (R7, R9). -/
theorem rested_closed : Closed Rested where
  refl s := .of_lines rfl rfl
  trans := .trans
  table h := .of_lines (by simp only [State.runs, h.mc]) h.lines
  verify _ _ _ := .of_lines rfl rfl
  withdraw _ _ := .of_lines rfl rfl
  place _ _ := by rw [placeConfirm_eq]; exact .of_lines rfl rfl
  co _ _ := .of_lines rfl rfl
  move _ _ := .of_lines rfl rfl
  amp _ _ _ _ := .of_lines rfl rfl
  verifyFails _ _ _ _ := .of_lines rfl rfl
  moveLine s y n := by
    refine .of_timers ((moveLine_work s n y).runs) (moveLine_keeps s y n) fun m => ?_
    rw [line_moveLine]
    split
    · next h => rw [h, movedLine_timer]
    · rfl
  settles _ _ _ := .of_lines rfl rfl
  active s h := .of_lines (by simp [State.runs, h]) rfl
  freeze s h _ _ := by
    have stops : s.runs = false := by simp [State.runs, h]
    refine ⟨by rw [stops]; rfl, fun n => ?_, fun n => ?_⟩
    · rw [line_mapLines]
      exact ⟨_, _, _, _, _, _, rfl⟩
    · rw [line_mapLines, stops]
      exact freeze_restsAs _

theorem rested_search : SearchClosed Rested := rested_closed.search fun _ _ => .of_lines rfl rfl

theorem arrival_rested (s : State) : Rested s (arrival s) := rested_search.arrival s

theorem reportMove_rested (s : State) : Rested s (reportMove arrival s) := rested_closed.reportMove _ arrival_rested

/-! ### The learn job that an order and an abort end between them (R19, R58) -/

section LetGo
variable (n : LineNo)

theorem move_orderSelector (s : State) (pos : Selector) : (orderSelector n pos s).move = s.moveAfter n pos := by
  unfold State.moveAfter; split
  · next h => rw [orderSelector_held s n h]
  · next h => rw [orderSelector_eq s n h]

/-- What the abort of a line's learn job leaves as it stands (R58). -/
theorem abortLearnOf_frame (s : State) : (abortLearnOf n s).move = s.move ∧ (abortLearnOf n s).faults = s.faults ∧
    (abortLearnOf n s).chan.verify = s.chan.verify ∧ (abortLearnOf n s).chan.confirm = s.chan.confirm ∧
    (∀ m, m ≠ n → (abortLearnOf n s).line m = s.line m) ∧
    ∃ a, (abortLearnOf n s).line n = { s.line n with learn := a } := by
  cases h : s.learnsOn n with
  | false =>
    rw [abortLearnOf_other s n h]
    exact ⟨rfl, rfl, rfl, rfl, fun _ _ => rfl, (s.line n).learn, rfl⟩
  | true =>
    rw [abortLearnOf_own s n h]
    exact ⟨rfl, rfl, rfl, rfl, fun m hm => line_setLine_ne s n m _ hm, none, line_setLine_same s n _⟩

/-- An order followed by an abort ends the line's learn job once, whichever of the two does (R58). -/
theorem job_let_go (s : State) (pos : Selector) {t : State} (hj : t.chan.job = (orderSelector n pos s).chan.job)
    (hp : SameButLatch (orderSelector n pos s).ports t.ports) :
    (abortLearnOf n t).chan.job = (if s.learnsOn n then none else s.chan.job) ∧
      SameButLatch (if s.learnsOn n then handedOn (s.chan.job.map (·.requester)) .learnAborted s.ports else s.ports)
        (abortLearnOf n t).ports := by
  have learns : t.learnsOn n = (orderSelector n pos s).learnsOn n := by simp only [State.learnsOn, hj]
  cases hl : s.learnsOn n with
  | false =>
    rw [orderSelector_quiet s n pos hl] at hj hp learns
    rw [abortLearnOf_other t n (learns.trans hl)]
    exact ⟨hj, hp⟩
  | true =>
    by_cases hs : (s.line n).selector = pos
    · rw [orderSelector_held s n hs] at hj hp learns
      rw [abortLearnOf_own t n (learns.trans hl), hj]
      exact ⟨rfl, hp.handedOn _ _⟩
    · rw [orderSelector_eq s n hs, hl] at hj hp learns
      rw [abortLearnOf_other t n learns]
      exact ⟨hj, hp⟩

end LetGo

/-! ### DISABLE_LINE (R19) -/

section Remove
variable (n : LineNo) (s : State)

/-- The state of DISABLE_LINE before the selector order: the waiting RESTORE ended (R19). -/
def restoreEnded (n : LineNo) (s : State) : State := endWaiting n .restoreAborted s

theorem restoreEnded_eq : restoreEnded n s =
    { s.setLine n { s.line n with waiting := none } with
      ports := handedOn (s.line n).waiting .restoreAborted s.ports } := endWaiting_eq s n _

theorem lineRemoved_eq : lineRemoved n s =
    let u := orderSelector n .off (restoreEnded n s)
    { u.setLine n (u.line n).removed with
      chan := { u.chan with
        verify := u.chan.verify.filter (· ≠ .line n), confirm := u.chan.confirm.filter (· ≠ .line n) } } := rfl

/-- DISABLE_LINE as the writes, the clears and the abort (R19): the clears turn every key of the line off. -/
theorem removeLine_parts : ∃ t, removeLine n s = abortLearnOf n t ∧ SameButTable (lineRemoved n s) t ∧
    SameButLatch (lineRemoved n s).ports t.ports ∧
    ((lineRemoved n s).faults.distinct → ∀ k ∈ lineKeys n, t.faults.off k) :=
  ⟨_, removeLine_eq n s, foldClears_same _ _, foldClears_latch _ _, fun h => (foldClears_off _ h).1⟩

/-- The record ordered to OPEN at a removal (R5, R19). -/
theorem ordered_restoreEnded : ∃ a, (restoreEnded n s).ordered n .off =
    { (s.line n).sentTo .off with waiting := none, learn := a } := by
  have sent : ({ s.line n with waiting := none } : Line).sentTo .off = { (s.line n).sentTo .off with waiting := none } := by
    unfold Line.sentTo; split <;> rfl
  unfold State.ordered restoreEnded
  rw [line_endWaiting, sent]
  exact ⟨_, rfl⟩

/-- The record of a removed line with its place (R19): everything else at its reset value. -/
theorem line_removeLine_eq : ∃ a, (removeLine n s).line n =
    { resetLine n with
      cfg := { (s.line n).cfg with enabled := false }, selector := .off
      relayLeft := ((s.line n).sentTo .off).relayLeft, current := (s.line n).current
      epoch := ((s.line n).sentTo .off).epoch, learn := a } := by
  have line : (lineRemoved n s).line n = ((restoreEnded n s).ordered n .off).removed := by
    rw [lineRemoved_eq]
    exact (line_setLine_same _ n _).trans (by rw [line_orderSelector_eq, if_pos rfl])
  obtain ⟨t, removed, same, -, -⟩ := removeLine_parts n s
  obtain ⟨-, -, -, -, -, a, learn⟩ := abortLearnOf_frame n t
  obtain ⟨b, ordered⟩ := ordered_restoreEnded n s
  refine ⟨a, ?_⟩
  rw [removed, learn, line_congr same.lines, line, ordered]
  have sent := sentTo_eq (s.line n) .off
  generalize (s.line n).sentTo .off = x at sent ⊢
  rw [sent]
  rfl

/-- What DISABLE_LINE leaves of the other lines, the queues and the move that is waited for (R19). -/
theorem removeLine_frame : (∀ m, m ≠ n → (removeLine n s).line m = s.line m) ∧
    (removeLine n s).chan.verify = s.chan.verify.filter (· ≠ .line n) ∧
    (removeLine n s).chan.confirm = s.chan.confirm.filter (· ≠ .line n) ∧
    (removeLine n s).move = s.moveAfter n .off ∧
    (s.faults.distinct → ∀ k ∈ lineKeys n, (removeLine n s).faults.off k) := by
  obtain ⟨t, removed, same, -, off⟩ := removeLine_parts n s
  obtain ⟨move, faults, verify, confirm, others, -⟩ := abortLearnOf_frame n t
  obtain ⟨ordFaults, ordVerify, ordConfirm, -, -⟩ := orderSelector_frame (restoreEnded n s) n .off
  have table : (lineRemoved n s).faults = s.faults := by
    rw [lineRemoved_eq]
    exact ordFaults.trans (by rw [restoreEnded_eq]; rfl)
  rw [removed]
  refine ⟨fun m hm => ?_, ?_, ?_, ?_, fun h => by rw [faults]; rw [table] at off; exact off h⟩
  · rw [others m hm, line_congr same.lines, lineRemoved_eq]
    refine (line_setLine_ne _ n m _ hm).trans ?_
    rw [line_orderSelector_eq, if_neg hm, restoreEnded_eq]
    exact line_setLine_ne s n m _ hm
  · rw [verify, same.chan, lineRemoved_eq]
    dsimp only
    rw [ordVerify, restoreEnded_eq]
    rfl
  · rw [confirm, same.chan, lineRemoved_eq]
    dsimp only
    rw [ordConfirm, restoreEnded_eq]
    rfl
  · rw [move, same.move]
    refine (move_orderSelector n (restoreEnded n s) .off).trans ?_
    rw [restoreEnded_eq]
    simp [State.moveAfter]

/-- The completions of DISABLE_LINE: the waiting RESTORE's first, then the learn job's (R19, R58). -/
theorem removeLine_job : (removeLine n s).chan.job = (if s.learnsOn n then none else s.chan.job) ∧
    SameButLatch
      (if s.learnsOn n then
        handedOn (s.chan.job.map (·.requester)) .learnAborted (handedOn (s.line n).waiting .restoreAborted s.ports)
        else handedOn (s.line n).waiting .restoreAborted s.ports) (removeLine n s).ports := by
  obtain ⟨t, removed, same, latch, -⟩ := removeLine_parts n s
  have let_go := job_let_go n (restoreEnded n s) .off (t := t) (by rw [same.chan]; rfl) latch
  have chan : (restoreEnded n s).chan = s.chan := by rw [restoreEnded_eq]; rfl
  have ports : (restoreEnded n s).ports = handedOn (s.line n).waiting .restoreAborted s.ports := by rw [restoreEnded_eq]
  have learns : (restoreEnded n s).learnsOn n = s.learnsOn n := by simp only [State.learnsOn, chan]
  rw [learns, chan, ports] at let_go
  rw [removed]
  exact let_go

end Remove

/-- A line at its reset values stays so but for its place, whatever becomes of a move (R7, R19). -/
theorem reset_of_rested (n : LineNo) {c : LineConfig} {x : Selector} {r : Option Nat} {y : AmpNo} {e : Byte}
    {a : Option LearnAcc} (line : u.line n =
      { resetLine n with cfg := c, selector := x, relayLeft := r, current := y, epoch := e, learn := a })
    (h : Rested u t) : t.line n =
    { resetLine n with
      cfg := c
      selector := (t.line n).selector, relayLeft := (t.line n).relayLeft, current := (t.line n).current
      epoch := (t.line n).epoch, learn := (t.line n).learn } := by
  obtain ⟨_, _, _, _, _, timer, kept⟩ := h.line n
  have idle : (t.line n).timer = .idle := restsAs_idle (by have := h.timer n; rw [line] at this; exact this)
  rw [kept] at idle ⊢
  obtain rfl : timer = .idle := idle
  rw [line]
  rfl

theorem disableLine_accepted (n : LineNo) (s : State) (he : s.emergency = false) (hs : (s.line n).state ≠ .disabled) :
    disableLine n s = (reportMove arrival (removeLine n s), bare .ok) := by
  simp [disableLine, he, hs]

/-- A move that outlasts the line is not reported by DISABLE_LINE (R7). -/
theorem removeLine_reported (n : LineNo) (s : State) (hm : s.moveOutlasts n = true) :
    reportMove arrival (removeLine n s) = removeLine n s := by
  obtain ⟨-, -, -, move, -⟩ := removeLine_frame n s
  exact reportMove_idle _ _ (by rw [move]; exact moveAfter_ne s n .off hm)

/-- The state of a removed line's learn job, in the words of the statement (R58). -/
theorem learnsOn_removed (n : LineNo) (s : State) :
    s.learnsOn n = (s.chan.job.isSome && (removeLine n s).chan.job.isNone) := by
  rw [(removeLine_job n s).1]
  cases hl : s.learnsOn n with
  | false => cases s.chan.job <;> rfl
  | true =>
    obtain ⟨j, hj, -⟩ := (learnsOn_iff s n).mp hl
    rw [hj]; rfl

/-- The ports after a removal, but for latches and replies, in the words of the statement (R19, R143). -/
theorem ports_removed (n : LineNo) (s : State) : ∀ u, u = completeIfAny (s.line n).waiting .restoreAborted s →
    ∀ v, v = (if s.learnsOn n then completeIfAny (s.chan.job.map (·.requester)) .learnAborted u else u) →
    SameButLatch v.ports (removeLine n s).ports := by
  rintro u rfl v rfl
  have ports := (removeLine_job n s).2
  simp only [completeIfAny_eq]
  split
  · next h => rw [if_pos h] at ports; exact ports
  · next h => rw [if_neg h] at ports; exact ports

/-- Ports that differ in latches, and then in one reply, have the same completions and in-flight counts. -/
theorem completions_answer {x : PerPort PortState} {t : State} (h : SameButLatch x t.ports) (p q : Port) (r : Reply) :
    ((t.answer p r).port q).completions = (x.get q).completions ∧ ((t.answer p r).port q).inFlight = (x.get q).inFlight := by
  have same : t.port q = { x.get q with latch := (t.port q).latch } := h q
  by_cases hq : q = p
  · subst hq; rw [port_answer_same, same]; exact ⟨rfl, rfl⟩
  · rw [port_answer_ne _ _ _ _ hq, same]; exact ⟨rfl, rfl⟩

/-- DISABLE_LINE of a line that is not DISABLED, without emergency (R19). -/
theorem disableLine_removes (p : Port) (tag : Byte) (n : LineNo) (s : State) (ht : s.takes .disableLine p (linePayload n))
    (he : s.emergency = false) (hs : (s.line n).state ≠ .disabled) :
    exec (.disableLine p tag (linePayload n)) s =
      .next ((reportMove arrival (removeLine n s)).answer p (bare .ok)) := by
  refine (lineRequest_taken s n ht disableLine).trans ?_
  rw [disableLine_accepted n s he hs]

/-- What DISABLE_LINE leaves in every case (R19). -/
theorem removed_common (p : Port) (n : LineNo) (s : State) : ∀ t, t = (reportMove arrival (removeLine n s)).answer p (bare .ok) →
    (t.port p).reply = some ⟨.ok, []⟩ ∧
      t.line n = { resetLine n with
        cfg := { (s.line n).cfg with enabled := false }
        selector := (t.line n).selector, relayLeft := (t.line n).relayLeft, current := (t.line n).current
        epoch := (t.line n).epoch, learn := (t.line n).learn } ∧
      t.store = s.store := by
  intro t ht
  obtain ⟨a, line⟩ := line_removeLine_eq n s
  have record := reset_of_rested n line (reportMove_rested (removeLine n s))
  have store := (reportMove_block arrival_block (removeLine n s)).store.trans (removeLine_onlyLine n s).work.store
  generalize reportMove arrival (removeLine n s) = u at ht record store
  have same : t.line n = u.line n := by rw [ht, line_answer]
  refine ⟨by rw [ht, port_answer_same]; rfl, ?_, by rw [ht]; exact store⟩
  rw [same]
  exact record

/-! ### CONFIGURE_LINE (R1, R2) -/

/-- The configuration that CONFIGURE_LINE writes, in the words of the statement (R1). -/
theorem clamp_eq (c : LineConfig) (hz : ∀ z, c.zref = some z → 1 ≤ z) : ∀ low, low = max 1 (min 999 c.low) →
    ∀ high, high = max 1 (min 9999 c.high) → c.clamp = {
      enabled := c.enabled, home := c.home, gain := max 1 (min 4095 c.gain)
      zref := c.zref.map (fun z => min 65534 z), low := low, high := high
      hyst := min (min 255 c.hyst) (min low high - 1), shortFloor := min 65534 c.shortFloor
      shift := min 4 c.shift, raiseCount := max 1 (min 15 c.raiseCount)
      clearCount := max 1 (min 15 c.clearCount), earthCheck := c.earthCheck
      threshold := max 1 (min 127 c.threshold), autoRetry := c.autoRetry
      retryDelay := max 1 (min 255 c.retryDelay), retryLimit := max 1 (min 7 c.retryLimit) } := by
  rintro low rfl high rfl
  have present : c.zref.map (clampTo 1 65534) = c.zref.map (fun z => min 65534 z) := by
    cases hc : c.zref with
    | none => rfl
    | some z =>
      have := hz z hc
      simp only [Option.map_some, clampTo]
      congr 1
      omega
  simp only [LineConfig.clamp, present, clampTo, Nat.zero_max]

/-- A reference that is carried is present (10.2). -/
theorem zref_lineFieldsAt (b : List Byte) (i : Nat) (home : AmpNo) (enabled : Bool) (z : Nat)
    (h : (lineFieldsAt b i home enabled).zref = some z) : 1 ≤ z := by
  simp only [lineFieldsAt] at h
  split at h
  · cases h
  · obtain rfl := Option.some.inj h
    omega

/-- CONFIGURE_LINE writes no other line (R2). -/
theorem applyLineConfig_others (n m : LineNo) (c : LineConfig) (s : State) (hm : m ≠ n) :
    (applyLineConfig n c s).line m = s.line m := by
  have reference : ∀ old u, (configureReference n old u).line m = u.line m := by
    intro old u
    rw [configureReference_eq]; dsimp only
    split
    · exact line_setLine_ne u n m _ hm
    · split
      · exact (line_raise _ m _ _).trans (line_setLine_ne u n m _ hm)
      · exact (line_clear _ m _ _).trans (line_setLine_ne u n m _ hm)
  have earth : ∀ old u, (configureEarth n old u).line m = u.line m := by
    intro old u
    rw [configureEarth_eq]; dsimp only
    split
    · exact (line_clear _ m _ _).trans (line_setLine_ne u n m _ hm)
    · exact line_setLine_ne u n m _ hm
  unfold applyLineConfig; dsimp only
  rw [configureRetry_eq, line_setLine_ne _ n m _ hm, earth, reference, line_setLine_ne _ n m _ hm]

/-- The record that an accepted CONFIGURE_LINE leaves, in the words of the statement (R1, R2). -/
theorem configured_fields (l : Line) (c : LineConfig) (current : AmpNo) (runs : Bool) :
    (l.configured c current runs).cfg = c ∧ (l.configured c current runs).current = current ∧
    ∀ m, m = l.configured c current runs → m = { l with
      cfg := m.cfg, current := m.current, state := m.state, cause := m.cause, timer := m.timer, candidate := m.candidate
      count := m.count, deviation := m.deviation, lastLc := m.lastLc, earth := m.earth
      earthCandidate := m.earthCandidate, earthCount := m.earthCount } := by
  obtain ⟨st, ca, u, e⟩ := reretried_keeps (l.written c current) runs
  rw [configured_eq, e]
  refine ⟨rfl, rfl, ?_⟩
  rintro m rfl
  rfl

end Sys2Proof.Machine

open Sys2Proof.Machine in
/-- Settles O26: DISABLE_LINE by the record it leaves, the order and the abort between them ending the learn job once; and
CONFIGURE_LINE by the configuration it writes, clamped. -/
theorem disableLineAndConfigureLineWriteTheLine : Obligations.DisableLineAndConfigureLineWriteTheLine := by
  refine ⟨fun p tag n s ht => ⟨fun he => ?_, fun he hs => ?_, fun he hs => ?_⟩, fun p tag n payload s ht hn =>
    ⟨fun he => ?_, fun he => ⟨fun hs => ?_, fun hc hp => ⟨fun hb => ?_, fun k hk => ⟨fun hr => ?_, fun hr => ?_⟩⟩⟩⟩⟩
  · exact (lineRequest_taken s n ht disableLine).trans (by simp [disableLine, he, bare])
  · exact (lineRequest_taken s n ht disableLine).trans (by simp [disableLine, he, hs, bare])
  · obtain ⟨reply, line, store⟩ := removed_common p n s _ rfl
    refine ⟨_, disableLine_removes p tag n s ht he hs, reply, line, store, fun hm => ?_⟩
    obtain ⟨others, verify, confirm, -, off⟩ := removeLine_frame n s
    obtain ⟨a, place⟩ := line_removeLine_eq n s
    have work := (removeLine_onlyLine n s).work
    have learns := learnsOn_removed n s
    have ports := ports_removed n s
    rw [removeLine_reported n s hm]
    clear reply line store
    generalize removeLine n s = u at others verify confirm off place work learns ports ⊢
    refine ⟨by rw [line_answer, place], by rw [line_answer, place], by rw [line_answer, place],
      by rw [line_answer, place], others, verify, confirm, learns, work.amps, work.co, work.mc,
      fun w hw v hv q => completions_answer (ports w hw v hv) p q _, fun ok k hk => ?_⟩
    have gone := off (distinct_of_tableOk ok) k hk
    exact ⟨holdsActive_of_off gone, gone.2⟩
  · exact (configureLine_taken payload n s p tag ht hn).trans (by simp [configureLine, he, bare])
  · exact (configureLine_taken payload n s p tag ht hn).trans (by simp [configureLine, he, hs, bare])
  · exact (configureLine_taken payload n s p tag ht hn).trans (by
      simp [configureLine, he, hc, hp, ampNo?, Nat.not_lt.mpr hb, bare])
  · exact (configureLine_taken payload n s p tag ht hn).trans (by
      simp [configureLine, he, hc, hp, ampNo?, ← hk, hr, bare])
  · rintro asked rfl
    have accepted := configureLine_accepted payload n s k he hc hp hk.symm hr _ rfl
    generalize hasked : lineFieldsAt payload 1 k (s.line n).cfg.enabled = asked at accepted ⊢
    obtain ⟨cfg, current, fields⟩ :=
      configured_fields (s.line n) asked.clamp (s.amp asked.clamp.home).carrying s.runs
    have line := line_applyLineConfig n asked.clamp s
    have frame := applyLineConfig_frame n asked.clamp s
    have only := applyLineConfig_onlyLine n asked.clamp s
    have home : asked.clamp.home = k := by rw [← hasked]; rfl
    have zref : ∀ z, asked.zref = some z → 1 ≤ z := fun z hz => zref_lineFieldsAt payload 1 k _ z (by rw [hasked]; exact hz)
    refine ⟨(applyLineConfig n asked.clamp s).answer p (bare (if lineConfigOk asked then .ok else .clamped)), ?_,
      congrArg PortState.reply (port_answer_same _ _ _), ?_, ?_, ?_, ?_, ?_, ?_, ?_⟩
    · rw [configureLine_taken payload n s p tag ht hn, accepted]
    · rw [line_answer, line, cfg]; exact lineConfigOk_clamp asked
    · rw [line_answer, line, cfg]; exact clamp_of_ok
    · rw [line_answer, line, cfg]
      intro low hlow high hhigh
      rw [clamp_eq asked zref low hlow high hhigh, ← hasked]
      rfl
    · rw [line_answer, line, current, home]
    · rw [line_answer, line]; exact fields _ rfl
    · exact fun m hm => (line_answer _ _ _ _).trans (applyLineConfig_others n m asked.clamp s hm)
    · exact frame.trans rfl
end

section
/-! PROOFS. DISABLE_AMP: the record it leaves, and the lines that come home from a covering standby (O36). -/

namespace Sys2Proof.Machine

variable (s : State) (k x : AmpNo)

/-! ### An amplifier in use (R84) -/

theorem ampInUse_iff : s.ampInUse k = true ↔
    (∃ n, (s.line n).cfg.enabled = true ∧ ((s.line n).cfg.home = k ∨ (s.line n).current = k)) ∨
      (s.amp k).state = .busy ∨ (∃ e ∈ s.co.queue, e.duty = k) ∨
      (s.co.op.any fun o => o.duty = k || o.standby = k) = true := by
  have homes : s.homesEnabled k = true ↔
      ∃ n, (s.line n).cfg.enabled = true ∧ ((s.line n).cfg.home = k ∨ (s.line n).current = k) := by
    simp [State.homesEnabled, mem_allLines]
  have queued : (s.co.entryOf k).isSome = true ↔ ∃ e ∈ s.co.queue, e.duty = k := by
    simp [Changeover.entryOf, List.find?_isSome]
  simp only [State.ampInUse, Bool.or_eq_true, homes, queued, decide_eq_true_eq, Changeover.involves, or_assoc]

/-! ### The amplifier removed (R84) -/

/-- The record of a removed amplifier (R84). -/
def Amp.removed (y : Amp) : Amp :=
  { y with
    cfg := { y.cfg with enabled := false }, state := .disabled, stamp := y.stamp + 1
    condition := .normal, candidate := none, count := 0, lastAc := none, lastProt := none }

/-- DISABLE_AMP up to the release of a standby: one record and one queue written, and three keys turned off (R84). -/
theorem ampRemoved_parts : SameButTable
      { s.setAmp k (s.amp k).removed with
        chan := { s.chan with confirm := s.chan.confirm.filter (· ≠ .amp k) } } (ampRemoved k s) ∧
    (s.faults.distinct → ∀ key ∈ [FaultKey.ampFail k, .noCover k, .storeFault (.amp k)], (ampRemoved k s).faults.off key) :=
  ⟨foldClears_same _ (withdrawConfirm (.amp k) (s.setAmp k (s.amp k).removed)),
    fun h => (foldClears_off (s := withdrawConfirm (.amp k) (s.setAmp k (s.amp k).removed)) _ h).1⟩

/-! ### The lines that come home (R4, R84) -/

/-- A line that a move does not order stays in the move that is waited for (R7). -/
theorem mem_move_foldl (y : AmpNo) (n : LineNo) (l : List LineNo) (s : State)
    (hn : n ∉ l ∨ (s.line n).state ≠ .connected) {w : List LineNo} (hw : s.move = some w) (hm : n ∈ w) :
    ∃ v, (l.foldl (moveLine y) s).move = some v ∧ n ∈ v := by
  induction l generalizing s w with
  | nil => exact ⟨w, hw, hm⟩
  | cons m l ih =>
    have kept : (((moveLine y s m).line n).state) = (s.line n).state := by
      obtain ⟨_, _, _, _, _, _, e⟩ := moveLine_keeps s y m n
      rw [e]
    have stays : ∃ v, (moveLine y s m).move = some v ∧ n ∈ v := by
      unfold moveLine; dsimp only
      rw [line_setLine_same]
      split
      · next hc =>
        have other : n ≠ m := by
          rintro rfl
          obtain hn | hn := hn
          · exact hn (by simp)
          · exact hn hc
        rw [move_orderSelector]
        unfold State.moveAfter
        split
        · exact ⟨w, hw, hm⟩
        · exact ⟨w.filter (· ≠ m), by rw [setLine_frame _ _ _ |>.2.2.2.1, hw]; rfl, by simp [hm, other]⟩
      · exact ⟨w, hw, hm⟩
    obtain ⟨v, hv, hnv⟩ := stays
    refine ih (moveLine y s m) ?_ hv hnv
    rw [kept]
    exact hn.imp_left fun h => by simp_all

theorem move_none_foldl (y : AmpNo) (l : List LineNo) (s : State) (h : s.move = none) :
    (l.foldl (moveLine y) s).move = none := by
  induction l generalizing s with
  | nil => exact h
  | cons m l ih =>
    refine ih (moveLine y s m) ?_
    unfold moveLine; dsimp only
    split
    · rw [move_orderSelector]
      unfold State.moveAfter
      split
      · exact h
      · change Option.map _ s.move = none
        rw [h]; rfl
    · exact h

/-- The lines that come home, when some line of the move that is waited for is not ordered (R4, R84): every line on the
standby moved, and that move not done. -/
theorem takeLinesHome_parts (h : ∀ l, s.move = some l → ∃ n ∈ l, (s.line n).current ≠ x ∨ (s.line n).state ≠ .connected) :
    (∀ n, (takeLinesHome x k s).line n = if (s.line n).current = x then s.movedLine n k else s.line n) ∧
      (takeLinesHome x k s).move ≠ some [] := by
  obtain ⟨-, lines⟩ := foldl_moveLine k _ (nodup_moved s x) s
  simp only [mem_moved] at lines
  refine ⟨lines, fun empty => ?_⟩
  cases hw : s.move with
  | none =>
    have none := move_none_foldl k (allLines.filter fun n => (s.line n).current = x) s hw
    unfold takeLinesHome at empty
    rw [none] at empty; cases empty
  | some w =>
    obtain ⟨n, hm, hn⟩ := h w hw
    obtain ⟨v, hv, hnv⟩ := mem_move_foldl k n (allLines.filter fun n => (s.line n).current = x) s
      (hn.imp_left fun h => by rw [mem_moved]; exact h) hw hm
    unfold takeLinesHome at empty
    rw [hv] at empty
    obtain rfl := Option.some.inj empty
    cases hnv

/-- The record of a line that comes home, in the words of the statement (R4). -/
theorem movedLine_eq (n : LineNo) (y : AmpNo) (h : (s.line n).state = .connected) : ∀ l, l = { s.line n with current := y } →
    s.movedLine n y = { l.sentTo (.bus y) with
      learn := if s.learnsOn n = true ∧ l.selector ≠ .bus y then none else l.learn } := by
  rintro l rfl
  unfold State.movedLine Line.sentTo
  by_cases hs : (s.line n).selector = .bus y
  · simp [h, hs]
  · cases hl : s.learnsOn n <;> simp [h, hs]

/-! ### The release of a standby (R84) -/

/-- The release of a standby up to the grant attempt (R84). -/
def standbyReleased (k x : AmpNo) (s : State) : State :=
  dropCovered x (setAmpState x .free (dropCover k (setCarrying k k (takeLinesHome x k s))))

theorem releaseStandby_eq : releaseStandby k x s = reportMove arrival (grantAttempt arrival (standbyReleased k x s)) := rfl

theorem grantAttempt_empty (arr : Arrive) (h : s.co.queue = []) : grantAttempt arr s = s := by
  simp [grantAttempt, h]

/-- What the release leaves of the state but for the amplifiers (R84). -/
theorem standbyReleased_frame : (standbyReleased k x s).lines = (takeLinesHome x k s).lines ∧
    (standbyReleased k x s).move = (takeLinesHome x k s).move ∧ (standbyReleased k x s).co = s.co := by
  have home := takeLinesHome_work s x k
  unfold standbyReleased setAmpState
  dsimp only
  split
  · exact ⟨rfl, rfl, home.co⟩
  · exact ⟨rfl, rfl, home.co⟩

theorem amp_standbyReleased_own (h : x ≠ k) : (standbyReleased k x s).amp k =
    { s.amp k with carrying := k, coveringStandby := none, coverSeq := none } := by
  have home := takeLinesHome_work s x k
  unfold standbyReleased dropCovered
  rw [amp_setAmp_ne _ _ _ _ h.symm, amp_setAmpState, if_neg (fun e => h e.1.symm)]
  simp [dropCover, setCarrying, amp_congr home.amps]

theorem amp_standbyReleased_standby : ((standbyReleased k x s).amp x).state = .free ∧
    ((standbyReleased k x s).amp x).coveredAmp = none := by
  unfold standbyReleased dropCovered
  rw [amp_setAmp_same]
  refine ⟨?_, rfl⟩
  rw [amp_setAmpState]
  split
  · rfl
  · next h => simpa using h

theorem standbyReleased_store : (standbyReleased k x s).store = s.store := by
  refine Eq.trans ?_ (takeLinesHome_work s x k).store
  unfold standbyReleased setAmpState
  dsimp only
  split <;> rfl

/-! ### The request (R84) -/

theorem reply_answer (s : State) (p : Port) (r : Reply) : ((s.answer p r).port p).reply = some r :=
  congrArg PortState.reply (port_answer_same s p r)

theorem disableAmp_removes (p : Port) (tag : Byte) (ht : s.takes .disableAmp p (ampPayload k)) (he : s.emergency = false)
    (hs : (s.amp k).state ≠ .disabled) (hu : s.ampInUse k = false) :
    exec (.disableAmp p tag (ampPayload k)) s = .next ((removeAmp k s).answer p (bare .ok)) := by
  refine (ampRequest_taken s k ht disableAmp).trans ?_
  simp [disableAmp, he, hs, hu]

theorem removeAmp_plain (hs : (s.amp k).state ≠ .disabled)
    (hc : (s.amp k).coveringStandby = none ∨ (s.amp k).state ≠ .covered ∧ (s.amp k).state ≠ .relieved) :
    removeAmp k s = ampRemoved k s := by
  rw [removeAmp_eq s k hs]
  cases hx : (s.amp k).coveringStandby with
  | none => rfl
  | some x =>
    obtain ⟨covered, relieved⟩ := hc.resolve_left (by rw [hx]; simp)
    simp [covered, relieved]

theorem removeAmp_releases (hs : (s.amp k).state ≠ .disabled) (hx : (s.amp k).coveringStandby = some x)
    (hc : (s.amp k).state = .covered ∨ (s.amp k).state = .relieved) :
    removeAmp k s = releaseStandby k x (ampRemoved k s) := by
  rw [removeAmp_eq s k hs, hx]
  exact if_pos hc

theorem removeAmp_store (hs : (s.amp k).state ≠ .disabled) : (removeAmp k s).store = s.store := by
  have removed := (ampRemoved_parts s k).1.store
  rw [removeAmp_eq s k hs]
  split
  · split
    · rw [releaseStandby_eq, (reportMove_block arrival_block _).store, (grantAttempt_block arrival_block _).store,
        standbyReleased_store]
      exact removed
    · exact removed
  · exact removed

end Sys2Proof.Machine

open Sys2Proof.Machine in
/-- Settles O36: the record written, and where a standby covered it, its lines brought home one by one. -/
theorem disableAmpRemovesAnAmplifierThatIsNotInUse : Obligations.DisableAmpRemovesAnAmplifierThatIsNotInUse := by
  intro p tag k s ht
  refine ⟨fun he => ?_, fun he => ⟨fun hs => ?_, fun hs inUse hu => ⟨fun h => ?_, fun h => ?_⟩⟩⟩
  · exact (ampRequest_taken s k ht disableAmp).trans (by simp [disableAmp, he, bare])
  · exact (ampRequest_taken s k ht disableAmp).trans (by simp [disableAmp, he, hs, bare])
  · have used : s.ampInUse k = true := (ampInUse_iff s k).mpr (by rw [h] at hu; exact of_decide_eq_true hu.symm)
    exact (ampRequest_taken s k ht disableAmp).trans (by simp [disableAmp, he, hs, used, bare])
  · have free : s.ampInUse k = false := by
      rw [h] at hu
      exact Bool.eq_false_iff.mpr fun e => of_decide_eq_false hu.symm ((ampInUse_iff s k).mp e)
    obtain ⟨removed, off⟩ := ampRemoved_parts s k
    refine ⟨(removeAmp k s).answer p (bare .ok), disableAmp_removes s k p tag ht he hs free, reply_answer _ p (bare .ok),
      removeAmp_store s k hs, fun hc => ?_, fun x hx hc hk hq hm => ?_⟩
    · rw [removeAmp_plain s k hs hc]
      generalize ampRemoved k s = u at removed off ⊢
      refine ⟨?_, fun j hj => ?_, removed.lines, removed.co, removed.mc, removed.move, removed.chan, fun ok key hkey => ?_⟩
      · exact (amp_congr removed.amps k).trans (amp_setAmp_same s k _)
      · exact (amp_congr removed.amps j).trans (amp_setAmp_ne s k j _ hj)
      · have gone := off (distinct_of_tableOk ok) key hkey
        exact ⟨holdsActive_of_off gone, gone.2⟩
    · rw [removeAmp_releases s k x hs hx hc]
      generalize ampRemoved k s = u at removed off ⊢
      have lines : ∀ n, u.line n = s.line n := fun n => line_congr removed.lines n
      obtain ⟨home, move⟩ := takeLinesHome_parts u k x (by simp only [lines]; rw [removed.move]; exact hm)
      obtain ⟨relLines, relMove, relCo⟩ := standbyReleased_frame u k x
      have empty : (standbyReleased k x u).co.queue = [] := by rw [relCo, removed.co]; exact hq
      rw [releaseStandby_eq, grantAttempt_empty _ _ empty, reportMove_idle _ _ (by rw [relMove]; exact move)]
      obtain ⟨standby, uncovers⟩ := amp_standbyReleased_standby u k x
      refine ⟨?_, by rw [amp_answer, standby], by rw [amp_answer, uncovers], fun n l hl => ?_⟩
      · rw [amp_answer, amp_standbyReleased_own u k x hk, amp_congr removed.amps]
        exact congrArg (fun y : Amp => { y with carrying := k, coveringStandby := none, coverSeq := none })
          (amp_setAmp_same s k _)
      · have learns : u.learnsOn n = s.learnsOn n := by simp only [State.learnsOn, removed.chan]
        rw [line_answer, line_congr relLines, home, lines]
        by_cases hcur : (s.line n).current = x
        · rw [if_pos hcur] at hl ⊢
          by_cases hcon : (s.line n).state = .connected
          · rw [if_pos ⟨hcur, hcon⟩, movedLine_eq u n k (by rw [lines]; exact hcon) l (by rw [lines]; exact hl), learns]
          · rw [if_neg (fun h => hcon h.2), hl, State.movedLine, lines, if_neg hcon]
        · rw [if_neg hcur] at hl ⊢
          rw [if_neg (fun h => hcur h.1), hl]
end

section
/-! PROOFS. The channel's search as exact next states, class by class: what each class grants, what it leaves in its queue,
and when a round ends (R27 to R35). -/

namespace Sys2Proof.Machine

variable (s : State)

/-! ### The words of the statements and those of the model -/

theorem newMeasurement_eq (t : Target) (c : GrantClass) (i : Option Nat) : newMeasurement t c i s = s.granted t c i := by
  cases t <;> rfl

theorem grant_eq (t : Target) (c : GrantClass) (i : Option Nat) :
    grant t c i s = { s with chan := { s.chan with inFlight := some (s.granted t c i) } } := by
  rw [← newMeasurement_eq]; rfl

theorem slotEligible_eq (x : Target) : slotEligible s x = s.slotKept x := by cases x <;> rfl

theorem slotWaits_eq (x : Target) : slotWaits s x = !s.slotAtRest x := by
  cases x with
  | amp k => rfl
  | line n | earth n => cases h : (s.line n).relayLeft <;> simp [slotWaits, State.slotAtRest, Line.moving, h]

/-- A slot is judged by the lines and the amplifiers alone. -/
theorem slotKept_congr {s t : State} (hl : t.lines = s.lines) (ha : t.amps = s.amps) (x : Target) :
    t.slotKept x = s.slotKept x := by cases x <;> simp [State.slotKept, line_congr hl, amp_congr ha]

theorem judgeVerify_grantable (x : Subject) : judgeVerify s x = .grantable ↔ s.grantsVerify x = true := by
  cases x with
  | amp k => simp [judgeVerify, State.grantsVerify, State.keptInVerify, State.atRest]
  | line n =>
    by_cases hp : (s.line n).state = .probing <;> cases hr : (s.line n).relayLeft <;>
      simp [judgeVerify, State.grantsVerify, State.keptInVerify, State.atRest, Line.moving, hp, hr]

theorem judgeVerify_removed (x : Subject) : judgeVerify s x = .removed ↔ s.keptInVerify x = false := by
  cases x with
  | amp k => simp [judgeVerify, State.keptInVerify]
  | line n =>
    by_cases hp : (s.line n).state = .probing <;> cases hr : (s.line n).relayLeft <;>
      simp [judgeVerify, State.keptInVerify, Line.moving, hp, hr]

theorem judgeConfirm_grantable (x : Subject) : judgeConfirm s x = .grantable ↔ s.grantsConfirm x = true := by
  cases x with
  | amp k => by_cases hd : (s.amp k).state = .disabled <;>
      simp [judgeConfirm, State.grantsConfirm, State.keptInConfirm, State.atRest, hd]
  | line n =>
    by_cases hp : (s.line n).state = .connected <;> cases hr : (s.line n).relayLeft <;>
      simp [judgeConfirm, State.grantsConfirm, State.keptInConfirm, State.atRest, Line.moving, hp, hr]

theorem judgeConfirm_removed (x : Subject) : judgeConfirm s x = .removed ↔ s.keptInConfirm x = false := by
  cases x with
  | amp k => by_cases hd : (s.amp k).state = .disabled <;> simp [judgeConfirm, State.keptInConfirm, hd]
  | line n =>
    by_cases hp : (s.line n).state = .connected <;> cases hr : (s.line n).relayLeft <;>
      simp [judgeConfirm, State.keptInConfirm, Line.moving, hp, hr]

/-! ### A queue (R34) -/

section Queue
variable {judge : Subject → Judgement} {grants kept : Subject → Bool}
  (hg : ∀ x, judge x = .grantable ↔ grants x = true) (hk : ∀ x, judge x = .removed ↔ kept x = false)
include hg hk

/-- The first entry that can be granted leaves the queue; those before it stay where they are kept (R34). -/
theorem searchQueue_append {pre rest : List Subject} {x : Subject} (hp : ∀ y ∈ pre, grants y = false)
    (hx : grants x = true) : searchQueue judge (pre ++ x :: rest) = (some x, pre.filter kept ++ rest) := by
  induction pre with
  | nil => simp [searchQueue, (hg x).mpr hx]
  | cons y ys ih =>
    have rest := ih fun z hz => hp z (by simp [hz])
    have no : judge y ≠ .grantable := fun h => by simp [(hg y).mp h] at hp
    cases hj : judge y with
    | grantable => exact absurd hj no
    | passedOver =>
      have keeps : kept y = true := by
        by_contra h
        simp [(hk y).mpr (by simpa using h)] at hj
      simp [searchQueue, hj, rest, keeps]
    | removed => simp [searchQueue, hj, rest, (hk y).mp hj]

theorem searchQueue_none {l : List Subject} (hp : ∀ y ∈ l, grants y = false) : searchQueue judge l = (none, l.filter kept) := by
  induction l with
  | nil => rfl
  | cons y ys ih =>
    have rest := ih fun z hz => hp z (by simp [hz])
    have no : judge y ≠ .grantable := fun h => by simp [(hg y).mp h] at hp
    cases hj : judge y with
    | grantable => exact absurd hj no
    | passedOver =>
      have keeps : kept y = true := by
        by_contra h
        simp [(hk y).mpr (by simpa using h)] at hj
      simp [searchQueue, hj, rest, keeps]
    | removed => simp [searchQueue, hj, rest, (hk y).mp hj]

end Queue

/-- A list splits at the first entry with a property, or has none with it. -/
theorem first_or_none {α : Type} (p : α → Bool) (l : List α) :
    (∀ y ∈ l, p y = false) ∨ ∃ pre x rest, l = pre ++ x :: rest ∧ (∀ y ∈ pre, p y = false) ∧ p x = true := by
  cases h : l.find? p with
  | none => exact .inl fun y hy => by simpa using List.find?_eq_none.mp h y hy
  | some x =>
    obtain ⟨hx, pre, rest, rfl, hp⟩ := List.find?_eq_some_iff_append.mp h
    exact .inr ⟨pre, x, rest, rfl, fun y hy => by simpa using hp y hy, hx⟩

/-! ### VERIFY and CONFIRM (R33, R34) -/

theorem tryVerify_some {pre rest : List Subject} {x : Subject} (h : s.chan.verify = pre ++ x :: rest)
    (hp : ∀ y ∈ pre, s.grantsVerify y = false) (hx : s.grantsVerify x = true) : tryVerify s = { s with chan := { s.chan with
      verify := pre.filter s.keptInVerify ++ rest, inFlight := some (s.granted x.target .verify none) } } := by
  unfold tryVerify
  rw [h, searchQueue_append (judgeVerify_grantable s) (judgeVerify_removed s) hp hx]
  exact grant_eq _ _ _ _

theorem tryVerify_none (hp : ∀ y ∈ s.chan.verify, s.grantsVerify y = false) :
    tryVerify s = { s with chan := { s.chan with verify := s.chan.verify.filter s.keptInVerify } } := by
  unfold tryVerify
  rw [searchQueue_none (judgeVerify_grantable s) (judgeVerify_removed s) hp]

theorem tryConfirm_some {pre rest : List Subject} {x : Subject} (h : s.chan.confirm = pre ++ x :: rest)
    (hp : ∀ y ∈ pre, s.grantsConfirm y = false) (hx : s.grantsConfirm x = true) : tryConfirm s = { s with chan := { s.chan with
      confirm := pre.filter s.keptInConfirm ++ rest, rotation := .confirm
      inFlight := some (s.granted x.target .confirm none) } } := by
  unfold tryConfirm
  rw [h, searchQueue_append (judgeConfirm_grantable s) (judgeConfirm_removed s) hp hx]
  exact grant_eq _ _ _ _

theorem tryConfirm_none (hp : ∀ y ∈ s.chan.confirm, s.grantsConfirm y = false) :
    tryConfirm s = { s with chan := { s.chan with confirm := s.chan.confirm.filter s.keptInConfirm } } := by
  unfold tryConfirm
  rw [searchQueue_none (judgeConfirm_grantable s) (judgeConfirm_removed s) hp]

/-! ### LEARN (R27) -/

theorem grantsLearn_iff {j : LearnJob} (h : s.chan.job = some j) :
    s.grantsLearn = true ↔ j.granted < learnSamples ∧ (!(s.line j.line).moving) = true := by
  simp [State.grantsLearn, h, Line.moving, learnSamples]

theorem tryLearn_some {j : LearnJob} (h : s.chan.job = some j) (hg : s.grantsLearn = true) :
    tryLearn s = { s with chan := { s.chan with
      job := some { j with granted := j.granted + 1 }, rotation := .learn
      inFlight := some (s.granted (.line j.line) .learn none) } } := by
  unfold tryLearn
  rw [h]
  dsimp only
  rw [if_pos ((grantsLearn_iff s h).mp hg)]
  exact grant_eq _ _ _ _

theorem tryLearn_none (hg : s.grantsLearn = false) : tryLearn s = s := by
  unfold tryLearn
  cases h : s.chan.job with
  | none => rfl
  | some j =>
    have no : ¬(j.granted < learnSamples ∧ (!(s.line j.line).moving) = true) := fun g => by
      simp [(grantsLearn_iff s h).mpr g] at hg
    exact if_neg no

/-! ### SCAN (R28, R29) -/

theorem nextSlot_append {pre rest : List Target} {x : Target} (hp : ∀ y ∈ pre, s.slotKept y = false)
    (hx : s.slotKept x = true) (i : Nat) : nextSlot s (pre ++ x :: rest) i = some (i + pre.length, x) := by
  induction pre generalizing i with
  | nil => simp [nextSlot, slotEligible_eq, hx]
  | cons y ys ih =>
    have hy : s.slotKept y = false := hp y (by simp)
    rw [List.cons_append, nextSlot, slotEligible_eq, hy, ih fun z hz => hp z (by simp [hz])]
    simp [Nat.add_assoc, Nat.add_comm 1]

theorem nextSlot_none {l : List Target} (hp : ∀ y ∈ l, s.slotKept y = false) (i : Nat) : nextSlot s l i = none := by
  induction l generalizing i with
  | nil => rfl
  | cons y ys ih =>
    have hy : s.slotKept y = false := hp y (by simp)
    rw [nextSlot, slotEligible_eq, hy]
    simpa using ih (fun z hz => hp z (by simp [hz])) (i + 1)

theorem takeSlot_rest (r : Round) (i : Nat) {x : Target} (hx : s.slotAtRest x = true) : takeSlot r i x s =
    { s with chan := { s.chan with
      round := some { r with pos := i + 1 }, rotation := .scan, inFlight := some (s.granted x .scan (some i)) } } := by
  unfold takeSlot
  rw [slotWaits_eq, hx]
  exact grant_eq _ _ _ _

theorem takeSlot_waits (r : Round) (i : Nat) {x : Target} (hx : s.slotAtRest x = false) : takeSlot r i x s =
    { s with chan := { s.chan with round := some { r with pos := i } } } := by
  unfold takeSlot
  rw [slotWaits_eq, hx]
  rfl

section Round
variable {r : Round} (hr : s.chan.round = some r)
include hr

/-- The first slot that is eligible, from the current position (R29). -/
theorem tryScan_slot {pre rest : List Target} {x : Target} (h : r.slots.drop r.pos = pre ++ x :: rest)
    (hp : ∀ y ∈ pre, s.slotKept y = false) (hx : s.slotKept x = true) :
    tryScan s = takeSlot r (r.pos + pre.length) x s := by
  have some : r.slots ≠ [] := fun e => by simp [e] at h
  unfold tryScan
  rw [hr]
  dsimp only
  rw [if_neg some, h, nextSlot_append s hp hx]

theorem tryScan_empty (h : r.slots = []) : tryScan s = s := by
  unfold tryScan
  rw [hr]
  exact if_pos h

/-- No slot left is eligible: the round ends within the search (R29). -/
theorem tryScan_ends (h : r.slots ≠ []) (hp : ∀ y ∈ r.slots.drop r.pos, s.slotKept y = false) :
    tryScan s = tryFirstSlot (endRound s) := by
  unfold tryScan
  rw [hr]
  dsimp only
  rw [if_neg h, nextSlot_none s hp]

end Round

theorem tryScan_none (h : s.chan.round = none) : tryScan s = s := by unfold tryScan; rw [h]

theorem tryFirstSlot_none (h : s.chan.round = none) : tryFirstSlot s = s := by unfold tryFirstSlot; rw [h]

theorem tryFirstSlot_slot {r : Round} (hr : s.chan.round = some r) {pre rest : List Target} {x : Target}
    (h : r.slots = pre ++ x :: rest) (hp : ∀ y ∈ pre, s.slotKept y = false) (hx : s.slotKept x = true) :
    tryFirstSlot s = takeSlot r pre.length x s := by
  unfold tryFirstSlot
  rw [hr]
  dsimp only
  rw [h, nextSlot_append s hp hx, Nat.zero_add]

theorem tryFirstSlot_empty {r : Round} (hr : s.chan.round = some r) (h : ∀ y ∈ r.slots, s.slotKept y = false) :
    tryFirstSlot s = s := by
  unfold tryFirstSlot
  rw [hr]
  dsimp only
  rw [nextSlot_none s h]

/-! ### A property that the search keeps -/

/-- A property that each class keeps where nothing is in flight. -/
structure SearchKeeps (P : State → Prop) : Prop where
  verify : ∀ s, s.chan.inFlight = none → P s → P (tryVerify s)
  confirm : ∀ s, s.chan.inFlight = none → P s → P (tryConfirm s)
  learn : ∀ s, s.chan.inFlight = none → P s → P (tryLearn s)
  scan : ∀ s, s.chan.inFlight = none → P s → P (tryScan s)

section Keeps
variable {s} {P : State → Prop} (hP : SearchKeeps P)

/-- No class is tried once one has made a grant (R33). -/
theorem firstGrant_keeps_prop (l : List (State → State)) (hl : ∀ f ∈ l, ∀ s, s.chan.inFlight = none → P s → P (f s))
    (hs : s.chan.inFlight = none) (h : P s) : P (firstGrant l s) := by
  induction l generalizing s with
  | nil => exact h
  | cons f fs ih =>
    unfold firstGrant; dsimp only
    have tried := hl f (by simp) s hs h
    split
    · exact tried
    · next hn => exact ih (fun g hg => hl g (by simp [hg])) (by simpa using hn) tried

include hP

theorem SearchKeeps.searchOnce (hs : s.chan.inFlight = none) (h : P s) : P (searchOnce s) := by
  refine firstGrant_keeps_prop _ (fun f hf => ?_) hs h
  rcases List.mem_cons.mp hf with rfl | hf
  · exact hP.verify
  · obtain ⟨c, -, rfl⟩ := List.mem_map.mp hf
    cases c with
    | confirm => exact hP.confirm
    | learn => exact hP.learn
    | scan => exact hP.scan

theorem SearchKeeps.searchRunning (hs : s.chan.inFlight = none) (h : P s) : P (searchRunning s) := by
  unfold Machine.searchRunning; dsimp only; split
  · next hn => exact hP.searchOnce (by simpa using hn.1) (hP.searchOnce hs h)
  · exact hP.searchOnce hs h

theorem SearchKeeps.channelFree (hst : ∀ s, P s → P (enterStandby s))
    (h : P { s with chan := { s.chan with inFlight := none } }) : P (channelFree s) := by
  unfold Machine.channelFree; dsimp only
  split
  · exact hP.searchRunning rfl h
  · exact hP.searchRunning rfl h
  · have tried := hP.verify _ rfl h
    split
    · unfold Machine.checkStopped; split
      · exact hst _ tried
      · exact tried
    · exact tried
  · exact h
  · exact h

end Keeps

/-! ### A round that does not end within the search (R29) -/

/-- The search ends no round: there is none, it is empty, or a slot left is eligible. -/
def State.scanStays (s : State) : Prop :=
  ∀ r, s.chan.round = some r → r.slots = [] ∨ ∃ x ∈ r.slots.drop r.pos, s.slotKept x = true

/-- From `s` to `t` the channel has changed alone, and no round has ended. -/
structure OnlyChan (s t : State) : Prop where
  exact : t = { s with chan := t.chan }
  number : t.chan.roundNumber = s.chan.roundNumber
  round : t.chan.round.isSome = s.chan.round.isSome

theorem OnlyChan.refl : OnlyChan s s := ⟨rfl, rfl, rfl⟩

theorem OnlyChan.of_chan {s t : State} (h : OnlyChan s t) {c : Channel} (hn : c.roundNumber = t.chan.roundNumber)
    (hr : c.round.isSome = t.chan.round.isSome) : OnlyChan s { t with chan := c } :=
  ⟨by rw [h.exact], hn.trans h.number, hr.trans h.round⟩

/-- The search has ended no round, and where it has granted nothing it will end none. -/
def Stays (s t : State) : Prop := OnlyChan s t ∧ (t.chan.inFlight = none → t.scanStays)

theorem slotKept_chan (c : Channel) (x : Target) : ({ s with chan := c } : State).slotKept x = s.slotKept x :=
  slotKept_congr rfl rfl x

/-- The search keeps its round at a slot that is eligible (R29). -/
theorem takeSlot_stays {s t : State} (only : OnlyChan s t) {r : Round} (hr : t.chan.round = some r) {i : Nat} {x : Target}
    (hi : r.slots[i]? = some x) (hx : t.slotKept x = true) : Stays s (takeSlot r i x t) := by
  cases ha : t.slotAtRest x with
  | true =>
    rw [takeSlot_rest t r _ ha]
    exact ⟨only.of_chan rfl (by rw [hr]; rfl), fun h => by simp at h⟩
  | false =>
    rw [takeSlot_waits t r _ ha]
    refine ⟨only.of_chan rfl (by rw [hr]; rfl), fun _ r' hr' => .inr ⟨x, ?_, hx⟩⟩
    obtain rfl : { r with pos := i } = r' := by simpa using hr'
    exact List.mem_of_getElem? (i := 0) (by simpa using hi)

/-- The search keeps a round that has an eligible slot left: it changes the channel alone. -/
theorem stays_searchKeeps (s : State) : SearchKeeps (Stays s) where
  verify t hn := by
    rintro ⟨only, stays⟩
    obtain hp | ⟨pre, x, rest, h, hp, hx⟩ := first_or_none t.grantsVerify t.chan.verify
    · rw [tryVerify_none t hp]
      exact ⟨only.of_chan rfl rfl, fun _ => stays hn⟩
    · rw [tryVerify_some t h hp hx]
      exact ⟨only.of_chan rfl rfl, fun h => by simp at h⟩
  confirm t hn := by
    rintro ⟨only, stays⟩
    obtain hp | ⟨pre, x, rest, h, hp, hx⟩ := first_or_none t.grantsConfirm t.chan.confirm
    · rw [tryConfirm_none t hp]
      exact ⟨only.of_chan rfl rfl, fun _ => stays hn⟩
    · rw [tryConfirm_some t h hp hx]
      exact ⟨only.of_chan rfl rfl, fun h => by simp at h⟩
  learn t hn := by
    rintro ⟨only, stays⟩
    cases hg : t.grantsLearn with
    | false => rw [tryLearn_none t hg]; exact ⟨only, stays⟩
    | true =>
      cases hj : t.chan.job with
      | none => simp [State.grantsLearn, hj] at hg
      | some j =>
        rw [tryLearn_some t hj hg]
        exact ⟨only.of_chan rfl rfl, fun h => by simp at h⟩
  scan t hn := by
    rintro ⟨only, stays⟩
    cases hr : t.chan.round with
    | none => rw [tryScan_none t hr]; exact ⟨only, stays⟩
    | some r =>
      obtain empty | ⟨y, hy, hk⟩ := stays hn r hr
      · rw [tryScan_empty t hr empty]; exact ⟨only, stays⟩
      · obtain none | ⟨pre, x, rest, h, hp, hx⟩ := first_or_none t.slotKept (r.slots.drop r.pos)
        · simp [none y hy] at hk
        · rw [tryScan_slot t hr h hp hx]
          refine takeSlot_stays only hr ?_ hx
          rw [← List.getElem?_drop, h]
          simp

/-- The first slot of a round that has just started (R29). -/
theorem tryFirstSlot_stays {s t : State} (h : Stays s t) : Stays s (tryFirstSlot t) := by
  obtain ⟨only, stays⟩ := h
  cases hr : t.chan.round with
  | none => rw [tryFirstSlot_none t hr]; exact ⟨only, stays⟩
  | some r =>
    obtain none | ⟨pre, x, rest, h, hp, hx⟩ := first_or_none t.slotKept r.slots
    · rw [tryFirstSlot_empty t hr none]; exact ⟨only, stays⟩
    · rw [tryFirstSlot_slot t hr h hp hx]
      refine takeSlot_stays only hr ?_ hx
      rw [h]
      simp

/-- A channel-free event in SETTLING and ACTIVE is a search (R32). -/
theorem channelFree_runs (hr : s.runs = true) :
    channelFree s = searchRunning { s with chan := { s.chan with inFlight := none } } := by
  unfold channelFree; dsimp only
  cases hm : s.mc.mode <;> simp_all [State.runs]

/-- An arrival with nothing in flight is a channel-free event (R32). -/
theorem arrival_free (h : s.chan.inFlight = none) : arrival s = channelFree s := by simp [arrival, h]

theorem inFlight_none_self (h : s.chan.inFlight = none) : ({ s with chan := { s.chan with inFlight := none } } : State) = s := by
  rw [← h]

/-- A search that ends no round changes the channel alone, while supervision runs (R32, R33). -/
theorem channelFree_stays (hr : s.runs = true) (h : s.scanStays) : OnlyChan s (channelFree s) := by
  rw [channelFree_runs s hr]
  exact ((stays_searchKeeps s).searchRunning (s := { s with chan := { s.chan with inFlight := none } }) rfl
    ⟨⟨rfl, rfl, rfl⟩, fun _ => h⟩).1

theorem arrival_stays (hr : s.runs = true) (h : s.scanStays) : OnlyChan s (arrival s) := by
  unfold arrival; split
  · exact .refl s
  · exact channelFree_stays s hr h

/-- The slots of a round that starts now are eligible (R28). -/
theorem slotKept_of_mem_slotList {x : Target} (h : x ∈ slotList s) : s.slotKept x = true := by
  simp only [slotList, List.mem_append, List.mem_flatMap] at h
  obtain ⟨k, -, hk⟩ | ⟨n, -, hn⟩ := h
  · unfold ampSlots at hk
    split at hk
    · simp at hk
    · next hd => simp_all [State.slotKept]
  · unfold lineSlots at hn
    simp only [List.mem_append, List.mem_ite_nil_right, List.mem_singleton] at hn
    obtain ⟨hc, rfl⟩ | ⟨⟨hd, he, -⟩, rfl⟩ := hn
    · simp [State.slotKept, hc]
    · simp [State.slotKept, hd, he]

theorem startRound_stays : (startRound s).scanStays := by
  intro r hr
  obtain rfl : (⟨slotList s, 0, emptyRoundMs⟩ : Round) = r := by simpa [startRound] using hr
  cases h : slotList s with
  | nil => exact .inl rfl
  | cons x xs =>
    refine .inr ⟨x, by simp, ?_⟩
    exact (slotKept_chan s _ x).trans (slotKept_of_mem_slotList s (by simp [h]))

end Sys2Proof.Machine
end

section
/-! PROOFS. The end of a round and the round that follows it (R30, R151); the expiries (O52). -/

namespace Sys2Proof.Machine

variable (s : State)

/-! ### What the blocks leave of the channel -/

/-- The round, the rotation and whether a measurement is in flight stand, and so do the lines that wait in the two queues. -/
structure ChanKept (s t : State) : Prop where
  round : t.chan.round = s.chan.round
  number : t.chan.roundNumber = s.chan.roundNumber
  rotation : t.chan.rotation = s.chan.rotation
  inFlight : t.chan.inFlight.isSome = s.chan.inFlight.isSome
  verify : ∀ n, .line n ∈ t.chan.verify ↔ .line n ∈ s.chan.verify
  confirm : ∀ n, .line n ∈ t.chan.confirm ↔ .line n ∈ s.chan.confirm

variable {s} in
theorem ChanKept.of_chan {t : State} (h : t.chan = s.chan) : ChanKept s t :=
  ⟨by rw [h], by rw [h], by rw [h], by rw [h], fun _ => by rw [h], fun _ => by rw [h]⟩

variable {s} in
theorem ChanKept.trans {t u : State} (h : ChanKept s t) (g : ChanKept t u) : ChanKept s u :=
  ⟨g.round.trans h.round, g.number.trans h.number, g.rotation.trans h.rotation, g.inFlight.trans h.inFlight,
    fun n => (g.verify n).trans (h.verify n), fun n => (g.confirm n).trans (h.confirm n)⟩

/-- The end of a learn job orphans its sample in flight and touches nothing else of the channel but the job (R58). -/
theorem chanKept_jobEnded {t : State} (h : t.chan = s.chan.jobEnded) : ChanKept s t :=
  ⟨by rw [h]; rfl, by rw [h]; rfl, by rw [h]; rfl, by rw [h]; simp [Channel.jobEnded], fun _ => by rw [h]; rfl,
    fun _ => by rw [h]; rfl⟩

theorem orderSelector_chanKept (n : LineNo) (pos : Selector) : ChanKept s (orderSelector n pos s) := by
  by_cases hp : (s.line n).selector = pos
  · rw [orderSelector_held s n hp]; exact .of_chan rfl
  · rw [orderSelector_eq s n hp]
    cases hl : s.learnsOn n with
    | false => exact .of_chan rfl
    | true => exact chanKept_jobEnded s rfl

theorem endLearn_chanKept (o : CompletionOutcome) : ChanKept s (endLearn o s) := by
  cases h : s.chan.job with
  | none => rw [endLearn_none s o h]; exact .of_chan rfl
  | some j => rw [endLearn_eq s o h]; exact chanKept_jobEnded s rfl

theorem chanKept_closed : Closed ChanKept where
  refl _ := .of_chan rfl
  trans := .trans
  table h := .of_chan h.chan
  verify _ _ hv := ⟨rfl, rfl, rfl, rfl, hv, fun _ => .rfl⟩
  withdraw _ _ := ⟨rfl, rfl, rfl, rfl, fun _ => .rfl, fun n => by simp [withdrawConfirm]⟩
  place s k := by
    rw [placeConfirm_eq]
    exact ⟨rfl, rfl, rfl, rfl, fun _ => .rfl, fun n => by dsimp only; split <;> simp⟩
  co _ _ := .of_chan rfl
  move _ _ := .of_chan rfl
  amp _ _ _ _ := .of_chan rfl
  verifyFails _ _ _ _ := .of_chan rfl
  moveLine s y n := by
    unfold moveLine; dsimp only; split
    · refine .trans ?_ (orderSelector_chanKept _ n _)
      exact .of_chan rfl
    · exact .of_chan rfl
  settles _ _ _ := .of_chan rfl
  active _ _ := .of_chan rfl
  freeze _ _ _ _ := .of_chan rfl

/-! ### Signalling at the end of a round (R140) -/

theorem anyEligible_setLatch (p q : Port) (v : Bool) : (s.setLatch q v).anyEligible p = s.anyEligible p := by
  cases p <;> cases q <;> rfl

/-- The latch of each port with an eligible class is set, and nothing else of any port changes (R140). -/
theorem port_signalAll (p : Port) :
    (signalAll s).port p = { s.port p with latch := (s.port p).latch || s.anyEligible p } := by
  have step : ∀ (t : State) (q : Port), (signalIfEligible q t).port p =
      if p = q then { t.port p with latch := (t.port p).latch || t.anyEligible p } else t.port p := by
    intro t q
    unfold signalIfEligible
    by_cases h : p = q
    · subst h
      by_cases he : t.anyEligible p <;> simp [State.setLatch, he]
    · by_cases he : t.anyEligible q <;> simp [State.setLatch, he, h, port_setPort_ne]
  have keep : ∀ (t : State) (q : Port), (signalIfEligible q t).anyEligible p = t.anyEligible p := by
    intro t q
    unfold signalIfEligible; split
    · exact anyEligible_setLatch t p q true
    · rfl
  simp only [signalAll, allPorts, List.foldl]
  cases p <;> simp [step, keep]

theorem anyEligible_signalAll (p : Port) : (signalAll s).anyEligible p = s.anyEligible p := by
  have keep : ∀ (t : State) (q : Port), (signalIfEligible q t).anyEligible p = t.anyEligible p := by
    intro t q
    unfold signalIfEligible; split
    · exact anyEligible_setLatch t p q true
    · rfl
  simp only [signalAll, allPorts, List.foldl, keep]

theorem signalAll_exact : signalAll s = { s with ports := (signalAll s).ports } := by
  have step : ∀ (t : State) (q : Port), ∃ x, signalIfEligible q t = { t with ports := x } := by
    intro t q
    unfold signalIfEligible; split
    · exact ⟨_, rfl⟩
    · exact ⟨t.ports, rfl⟩
  simp only [signalAll, allPorts, List.foldl]
  obtain ⟨x, hx⟩ := step s .a
  obtain ⟨y, hy⟩ := step (signalIfEligible .a s) .b
  obtain ⟨z, hz⟩ := step (signalIfEligible .b (signalIfEligible .a s)) .m
  rw [hz, hy, hx]

/-! ### The end of a round (R30) -/

/-- The channel with its round let go and the next number (R30). -/
def State.roundOver (s : State) : State :=
  { s with chan := { s.chan with round := none, roundNumber := s.chan.roundNumber + 1 } }

theorem endRound_eq : endRound s =
    if (countRound s.roundOver).runs then startRound (signalAll (countRound s.roundOver))
    else signalAll (countRound s.roundOver) := by
  have runs : (signalAll (countRound s.roundOver)).runs = (countRound s.roundOver).runs :=
    (signalAll_same _).table.lineWork.runs
  rw [← runs]
  rfl

theorem countRound_runs : (countRound s.roundOver).runs = s.runs := (rested_closed.countRound s.roundOver).runs

/-- Mode control counts a round in SETTLING alone (R151). -/
theorem countRound_still (h : s.mc.mode ≠ .settling) : countRound s = s := by simp [countRound, h]

theorem endRound_runs (h : s.runs = true) : endRound s = startRound (signalAll (countRound s.roundOver)) := by
  rw [endRound_eq, countRound_runs, if_pos h]

theorem endRound_rests (h : s.runs = false) : endRound s = signalAll s.roundOver := by
  have still : countRound s.roundOver = s.roundOver :=
    countRound_still _ fun e => by simp [State.runs, show s.mc.mode = .settling from e] at h
  rw [endRound_eq, countRound_runs, h, still]
  rfl

/-- What the end of a round makes of the channel but its next round: the number is the next, and the queues' lines and the
measurement in flight stand (R30). -/
theorem endRound_counted : ChanKept s.roundOver { endRound s with chan := { (endRound s).chan with round := none } } := by
  have counted := chanKept_closed.countRound s.roundOver
  have signalled : (signalAll (countRound s.roundOver)).chan = (countRound s.roundOver).chan := (signalAll_same _).chan
  cases h : s.runs with
  | true =>
    rw [endRound_runs s h]
    refine counted.trans ?_
    simp only [startRound, signalled]
    exact ⟨counted.round.symm, rfl, rfl, rfl, fun _ => .rfl, fun _ => .rfl⟩
  | false =>
    rw [endRound_rests s h]
    have same : (signalAll s.roundOver).chan = s.roundOver.chan := (signalAll_same _).chan
    refine .of_chan ?_
    dsimp only
    rw [same]
    rfl

theorem endRound_number : (endRound s).chan.roundNumber = s.chan.roundNumber + 1 := (endRound_counted s).number

theorem endRound_inFlight : (endRound s).chan.inFlight.isSome = s.chan.inFlight.isSome := (endRound_counted s).inFlight

/-- The round that follows starts with eligible slots alone, or there is none: the search that follows ends no round. -/
theorem endRound_stays : (endRound s).scanStays := by
  cases h : s.runs with
  | true => rw [endRound_runs s h]; exact startRound_stays _
  | false =>
    rw [endRound_rests s h]
    intro r hr
    rw [(signalAll_same s.roundOver).chan] at hr
    simp [State.roundOver] at hr

/-- Outside SETTLING the end of a round changes the channel and the latches alone (R30, R151). -/
theorem endRound_still (h : s.mc.mode ≠ .settling) :
    endRound s = { s with chan := (endRound s).chan, ports := (endRound s).ports } := by
  have still : countRound s.roundOver = s.roundOver := countRound_still _ h
  have exact : signalAll s.roundOver = { s.roundOver with ports := (signalAll s.roundOver).ports } := signalAll_exact _
  rw [endRound_eq, still]
  split
  · generalize (signalAll s.roundOver).ports = q at exact
    rw [exact]
    rfl
  · generalize (signalAll s.roundOver).ports = q at exact
    rw [exact]
    rfl

/-! ### An arrival after the end of a round -/

/-- Where supervision does not run an arrival ends no round (R35). -/
theorem arrival_rests (h : s.runs = false) : (arrival s).chan.roundNumber = s.chan.roundNumber := by
  have tried : ∀ t : State, (tryVerify t).chan.roundNumber = t.chan.roundNumber := by
    intro t
    obtain hp | ⟨pre, x, rest, h, hp, hx⟩ := first_or_none t.grantsVerify t.chan.verify
    · rw [tryVerify_none t hp]
    · rw [tryVerify_some t h hp hx]
  have stopped : ∀ t : State, (checkStopped t).chan = t.chan := by
    intro t
    unfold checkStopped; split
    · exact (signalAll_same _).chan
    · rfl
  unfold arrival; split
  · rfl
  · unfold channelFree; dsimp only
    cases hm : s.mc.mode with
    | settling | active => simp [State.runs, hm] at h
    | stopping =>
      dsimp only; split
      · rw [stopped, tried]
      · rw [tried]
    | loading | standby => rfl

/-- The end of a round and the arrival after it: one number on (R30, R31). -/
theorem arrival_endRound_number : (arrival (endRound s)).chan.roundNumber = s.chan.roundNumber + 1 := by
  rw [← endRound_number]
  cases h : (endRound s).runs with
  | true => exact (arrival_stays _ h (endRound_stays s)).number
  | false => exact arrival_rests _ h

/-! ### Relay operations (R5, R7) -/

section Relay
variable (n : LineNo)

/-- The state when a relay operation of line `n` is over (R5). -/
def State.relayOver (s : State) (n : LineNo) : State := s.setLine n { s.line n with relayLeft := none }

theorem relayOver_rested : Rested s (s.relayOver n) := by
  refine .of_timers rfl (fun m => ?_) fun m => ?_
  · rw [State.relayOver, line_setLine]; split
    · next h => subst h; exact ⟨_, _, _, _, _, _, rfl⟩
    · exact .refl _
  · rw [State.relayOver, line_setLine]; split
    · next h => subst h; rfl
    · rfl

theorem relayDone_rested : Rested s (relayDone n s) :=
  ((relayOver_rested s n).trans (arrival_rested _)).trans ((rested_closed.move _ _).trans (reportMove_rested _))

theorem relayDone_inFlight (h : s.chan.inFlight.isSome) : relayDone n s =
    reportMove arrival { s.relayOver n with move := s.move.map (·.filter (· ≠ n)) } := by
  unfold relayDone
  rw [arrival_inFlight (s.setLine n { s.line n with relayLeft := none }) h]
  rfl

/-- The last relay operation of the move of an operation in flight: its verify is asked for (R7, R93). -/
theorem relayDone_last (h : s.chan.inFlight.isSome) {o : Operation} (ho : s.co.op = some o) (hp : o.phase = .moving)
    (hm : s.move = some [n]) : relayDone n s =
      { s.relayOver n with
        move := none
        co := { s.co with op := some { o with phase := .verifying } }
        chan := { s.chan with
          verify := if .amp o.verified ∈ s.chan.verify then s.chan.verify else s.chan.verify ++ [.amp o.verified] } } := by
  have done : reportMove arrival { s.relayOver n with move := s.move.map (·.filter (· ≠ n)) } =
      moveDone arrival { s.relayOver n with move := none } := by simp [reportMove, hm]
  have asked : moveDone arrival { s.relayOver n with move := none } =
      beginVerify arrival o { s.relayOver n with move := none } := by
    unfold moveDone
    rw [show ({ s.relayOver n with move := none } : State).co.op = some o from ho]
    simp only [hp]
  rw [relayDone_inFlight s n h, done, asked]
  unfold beginVerify
  refine (placeVerify_inFlight _ _ ?_).trans ((placeVerify_id _ _).trans ?_)
  · exact h
  · simp [setPhase, State.relayOver, State.setLine, ho]

/-! ### Retry timers (R9) -/

theorem running_iff (u : RetryTimer) : u.freeze ≠ u ↔ ∃ ms, u = .running ms := by cases u <;> simp [RetryTimer.freeze]

/-- The state when the retry timer of line `n` has expired (R9). -/
def State.expired (s : State) (n : LineNo) : State := s.setLine n { s.line n with timer := .idle }

theorem expireRetry_emergency (h : s.emergency = true) :
    expireRetry n s = s.setLine n { s.line n with probeDue := true, timer := .idle } := by
  simp [expireRetry, h]

theorem expireRetry_probes (h : s.emergency = false) : expireRetry n s = startProbe arrival n (s.expired n) := by
  simp [expireRetry, h, State.expired]

theorem expireRetry_line : (s.emergency = true → ({ s.line n with probeDue := true } : Line).keptIn ((expireRetry n s).line n)) ∧
    (s.emergency = false → ({ s.line n with
        state := .probing, cause := .noCause, zf := none, deviation := none, passCount := 0, probeDue := false } :
          Line).keptIn ((expireRetry n s).line n)) := by
  refine ⟨fun h => ?_, fun h => ?_⟩
  · rw [expireRetry_emergency s n h, line_setLine_same]
  · rw [expireRetry_probes s n h, startProbe_eq]
    obtain ⟨r, e, a, hr⟩ := line_probeStarted (s.expired n) n
    refine (KeptLine.trans ?_ (placeVerify_keeps arrival_keeps _ _ n)).keptIn
    rw [hr, State.expired, line_setLine_same]
    exact ⟨_, _, _, _, _, _, rfl⟩

theorem expireRetry_others {m : LineNo} (hm : m ≠ n) : KeptLine (s.line m) ((expireRetry n s).line m) := by
  cases h : s.emergency with
  | true => rw [expireRetry_emergency s n h, line_setLine_ne _ _ _ _ hm]; exact .refl _
  | false =>
    rw [expireRetry_probes s n h, startProbe_eq]
    refine KeptLine.trans ?_ (placeVerify_keeps arrival_keeps _ _ m)
    obtain ⟨a, e⟩ := (probeStarted_onlyLine (s.expired n) n).others m hm
    rw [e, State.expired, line_setLine_ne _ _ _ _ hm]
    exact ⟨_, _, _, _, _, _, rfl⟩

/-- The probe that an expiry starts while a measurement is in flight (R9, R11). -/
theorem expireRetry_inFlight (h : s.emergency = false) (hl : s.learnsOn n = false) (hf : s.chan.inFlight.isSome) :
    expireRetry n s = { s.setLine n { (s.line n).sentTo .test with
        state := .probing, cause := .noCause, zf := none, deviation := none, passCount := 0, probeDue := false
        timer := .idle } with
      move := s.moveAfter n .test
      chan := { s.chan with
        verify := if .line n ∈ s.chan.verify then s.chan.verify else s.chan.verify ++ [.line n] } } := by
  have probing : ({ s.line n with timer := .idle } : Line).probing = { (s.line n).sentTo .test with
      state := .probing, cause := .noCause, zf := none, deviation := none, passCount := 0, probeDue := false
      timer := .idle } := by
    unfold Line.probing Line.sentTo
    by_cases h : (s.line n).selector = .test <;> simp [h]
  have moved : (s.expired n).moveAfter n .test = s.moveAfter n .test := by simp [State.moveAfter, State.expired]
  rw [expireRetry_probes s n h, startProbe_inFlight (s.expired n) n hl hf, moved, State.expired, line_setLine_same,
    probing, setLine_setLine]
  rfl

theorem expireRetry_store : (expireRetry n s).store = s.store := by
  cases h : s.emergency with
  | true => rw [expireRetry_emergency s n h]; rfl
  | false => rw [expireRetry_probes s n h]; exact (startProbe_block arrival_block n _).store

theorem retryExpiry_taken (h : s.mc.resetInForce = none) : exec (.retryExpiry n) s = .next
    (match (s.line n).timer with
    | .running _ => reportMove arrival (expireRetry n s)
    | _ => s) := by
  change execRetryExpiry n s = _
  unfold execRetryExpiry
  exact (takeEvent_taken s h _).trans rfl

end Relay

theorem emptyRound_eq : s.emptyRound = s.chan.round.any (fun r => r.slots = []) := by
  unfold State.emptyRound
  congr 1
  funext r
  cases r.slots <;> rfl

end Sys2Proof.Machine

open Sys2Proof.Machine in
/-- Settles O52: each expiry as an exact next state, and the search after an empty round, which ends no other. -/
theorem expiriesEndWhatRan : Obligations.ExpiriesEndWhatRan := by
  intro n s hreset
  refine ⟨fun h => ?_, fun h => ?_, fun h => ?_, fun h => ?_, fun h => ?_, fun h => ?_⟩
  · exact (takeEvent_taken s hreset _).trans (by simp [Line.moving, h])
  · refine ⟨relayDone n s, (takeEvent_taken s hreset _).trans (by simp [Line.moving, h]), ?_,
      fun k => ((relayDone_rested s n).line k).keptIn, fun hf => ⟨fun hm => ?_, fun o ho hp hm k hk => ?_⟩⟩
    · exact (reportMove_block arrival_block _).store.trans
        (arrival_block (s.setLine n { s.line n with relayLeft := none })).store
    · rw [relayDone_inFlight s n hf]
      exact reportMove_idle _ _ (move_of_outlasts s n hm).2
    · subst hk
      have verified : (if o.kind = .cover then o.standby else o.duty) = o.verified := by
        cases hk : o.kind <;> simp [Operation.verified, hk]
      rw [verified]
      exact relayDone_last s n hf ho hp hm
  · refine (retryExpiry_taken s n hreset).trans ?_
    cases ht : (s.line n).timer with
    | running ms => simp [ht, RetryTimer.freeze] at h
    | _ => rfl
  · obtain ⟨ms, ht⟩ := (running_iff _).mp h
    have kept := fun k => (reportMove_rested (expireRetry n s)).line k
    refine ⟨reportMove arrival (expireRetry n s), (retryExpiry_taken s n hreset).trans (by rw [ht]), ?_,
      fun k hk => ((expireRetry_others s n hk).trans (kept k)).keptIn,
      fun he => (KeptLine.trans (.of_keptIn ((expireRetry_line s n).1 he)) (kept n)).keptIn,
      fun he => (KeptLine.trans (.of_keptIn ((expireRetry_line s n).2 he)) (kept n)).keptIn,
      fun hf hm hl => ⟨fun he => ?_, fun he => ?_⟩⟩
    · exact (reportMove_block arrival_block _).store.trans (expireRetry_store s n)
    · rw [expireRetry_emergency s n he]
      exact reportMove_idle _ _ (move_of_outlasts s n hm).1
    · rw [expireRetry_inFlight s n he hl hf, reportMove_idle _ _ (moveAfter_ne s n .test hm)]
  · refine (takeEvent_taken s hreset _).trans ?_
    rw [← emptyRound_eq] at h
    simp [h]
  · have empty : s.emptyRound = true := (emptyRound_eq s).trans h
    refine ⟨arrival (endRound s), (takeEvent_taken s hreset _).trans (by simp [empty]),
      (arrival_block _).store.trans (endRound_block s).store,
      fun k => ((rested_search.endRound s).trans (arrival_rested _)).line k |>.keptIn, arrival_endRound_number s,
      fun hm => ?_⟩
    have still := endRound_still s (by simp [hm])
    have runs : (endRound s).runs = true := by rw [still]; simp [State.runs, hm]
    have only := (arrival_stays _ runs (endRound_stays s)).exact
    generalize (arrival (endRound s)).chan = c at only
    rw [only]
    generalize (endRound s).ports = q at still
    rw [still]
end

section
/-! PROOFS. What happens where supervision has stopped; STOP, with the probes it ends one by one (O39). -/

namespace Sys2Proof.Machine

variable {s t u : State}

/-! ### What stands where supervision has stopped (R35, R154) -/

/-- From `s`, in STOPPING or STANDBY, to `t`: mode control may enter STANDBY where nothing is in flight, the channel starts
no round, no job and no confirmation, and no line joins the verify queue. -/
structure Stopped (s t : State) : Prop where
  mode : t.mc.mode = .stopping ∨ t.mc.mode = .standby
  mc : t.mc = { s.mc with mode := t.mc.mode }
  held : s.chan.inFlight.isSome → t.chan.inFlight.isSome
  waits : s.chan.inFlight.isSome → t.mc.mode = s.mc.mode
  round : t.chan.round = s.chan.round
  confirm : s.chan.confirm = [] → t.chan.confirm = []
  job : s.chan.job = none → t.chan.job = none
  verify : ∀ n, .line n ∈ t.chan.verify → .line n ∈ s.chan.verify

/-- A state in STOPPING or STANDBY is followed by one that is `Stopped`. -/
def StaysStopped (s t : State) : Prop := s.mc.mode = .stopping ∨ s.mc.mode = .standby → Stopped s t

theorem Stopped.of_chan (hm : s.mc.mode = .stopping ∨ s.mc.mode = .standby) (hmc : t.mc = s.mc) (hc : t.chan = s.chan) :
    Stopped s t :=
  ⟨by rw [hmc]; exact hm, by rw [hmc], by rw [hc]; exact id, fun _ => by rw [hmc], by rw [hc], by rw [hc]; exact id,
    by rw [hc]; exact id, fun n => by rw [hc]; exact id⟩

theorem Stopped.trans (h : Stopped s t) (g : Stopped t u) : Stopped s u where
  mode := g.mode
  mc := by rw [g.mc, h.mc]
  held hf := g.held (h.held hf)
  waits hf := (g.waits (h.held hf)).trans (h.waits hf)
  round := g.round.trans h.round
  confirm hc := g.confirm (h.confirm hc)
  job hj := g.job (h.job hj)
  verify n hn := h.verify n (g.verify n hn)

theorem Stopped.of_order (hm : s.mc.mode = .stopping ∨ s.mc.mode = .standby) (n : LineNo) (pos : Selector) :
    Stopped s (orderSelector n pos s) := by
  by_cases hp : (s.line n).selector = pos
  · rw [orderSelector_held s n hp]; exact .of_chan hm rfl rfl
  · rw [orderSelector_eq s n hp]
    cases hl : s.learnsOn n with
    | false => exact .of_chan hm rfl rfl
    | true =>
      refine ⟨hm, rfl, ?_, fun _ => rfl, rfl, id, fun _ => rfl, fun _ => id⟩
      simp [Channel.jobEnded]

theorem not_runs_of_stopped (hm : s.mc.mode = .stopping ∨ s.mc.mode = .standby) : s.runs = false := by
  obtain h | h := hm <;> simp [State.runs, h]

theorem staysStopped_closed : Closed StaysStopped where
  refl _ hm := .of_chan hm rfl rfl
  trans h g hm := (h hm).trans (g (h hm).mode)
  table h hm := .of_chan hm h.mc h.chan
  verify _ _ hv hm := ⟨hm, rfl, id, fun _ => rfl, rfl, id, id, fun n => (hv n).mp⟩
  withdraw _ _ hm := ⟨hm, rfl, id, fun _ => rfl, rfl, fun h => by simp [withdrawConfirm, h], id, fun _ => id⟩
  place s k hm := by
    rw [placeConfirm_eq]
    refine ⟨hm, rfl, id, fun _ => rfl, rfl, fun h => ?_, id, fun _ => id⟩
    simp [not_runs_of_stopped hm, h]
  co _ _ hm := .of_chan hm rfl rfl
  move _ _ hm := .of_chan hm rfl rfl
  amp _ _ _ _ hm := .of_chan hm rfl rfl
  verifyFails _ _ _ _ hm := .of_chan hm rfl rfl
  moveLine s y n hm := by
    unfold moveLine; dsimp only; split
    · refine .trans ?_ (.of_order (s := s.setLine n _) hm n _)
      exact .of_chan hm rfl rfl
    · exact .of_chan hm rfl rfl
  settles s _ h hm := by simp [h] at hm
  active s h hm := by simp [h] at hm
  freeze s h hf _ hm := ⟨.inr rfl, rfl, id, fun hs => by simp_all, rfl, id, id, fun _ => id⟩

/-- An arrival where supervision has stopped (R35). -/
theorem arrival_staysStopped (s : State) : StaysStopped s (arrival s) := by
  intro hm
  unfold arrival; split
  · exact .of_chan hm rfl rfl
  · next hn =>
    have none : s.chan.inFlight = none := by simpa using hn
    have tried : ∀ t : State, t.chan.inFlight = .none → (t.mc.mode = .stopping ∨ t.mc.mode = .standby) →
        Stopped t (tryVerify t) := by
      intro t hf hm
      obtain hp | ⟨pre, x, rest, h, hp, hx⟩ := first_or_none t.grantsVerify t.chan.verify
      · rw [tryVerify_none t hp]
        exact ⟨hm, rfl, id, fun _ => rfl, rfl, id, id, fun n hn => (List.mem_filter.mp hn).1⟩
      · rw [tryVerify_some t h hp hx]
        refine ⟨hm, rfl, fun _ => rfl, fun _ => rfl, rfl, id, id, fun n hn => ?_⟩
        rw [h]
        simp only [List.mem_append, List.mem_filter, List.mem_cons] at hn ⊢
        tauto
    have freed : Stopped s { s with chan := { s.chan with inFlight := .none } } :=
      ⟨hm, rfl, fun h => by simp [none] at h, fun _ => rfl, rfl, id, id, fun _ => id⟩
    refine freed.trans ?_
    generalize hu : ({ s with chan := { s.chan with inFlight := .none } } : State) = v at freed
    have hv : v.mc.mode = .stopping ∨ v.mc.mode = .standby := freed.mode
    have hf : v.chan.inFlight = .none := by rw [← hu]
    have free : channelFree s = channelFree v := by rw [← hu]; rfl
    rw [free]
    unfold channelFree; dsimp only
    have same : ({ v with chan := { v.chan with inFlight := .none } } : State) = v := by rw [← hf]
    rw [same]
    cases hmode : v.mc.mode with
    | stopping =>
      dsimp only; split
      · exact (tried v hf hv).trans (staysStopped_closed.checkStopped _ (tried v hf hv).mode)
      · exact tried v hf hv
    | standby => exact .of_chan hv rfl rfl
    | loading | settling | active => simp [hmode] at hv

/-! ### Selectors of lines off their bus -/

/-- A line that is not CONNECTED keeps its state and its selector: a move orders the selectors of CONNECTED lines alone (R7). -/
def OffKept (s t : State) : Prop := ∀ n, (s.line n).state ≠ .connected →
  (t.line n).state = (s.line n).state ∧ (t.line n).selector = (s.line n).selector

theorem OffKept.of_lines (h : t.lines = s.lines) : OffKept s t := fun n _ => by rw [line_congr h]; exact ⟨rfl, rfl⟩

theorem offKept_closed : Closed OffKept where
  refl _ _ _ := ⟨rfl, rfl⟩
  trans h g n hn := by
    obtain ⟨state, selector⟩ := h n hn
    obtain ⟨state', selector'⟩ := g n (by rw [state]; exact hn)
    exact ⟨state'.trans state, selector'.trans selector⟩
  table h := .of_lines h.lines
  verify _ _ _ := .of_lines rfl
  withdraw _ _ := .of_lines rfl
  place _ _ := by rw [placeConfirm_eq]; exact .of_lines rfl
  co _ _ := .of_lines rfl
  move _ _ := .of_lines rfl
  amp _ _ _ _ := .of_lines rfl
  verifyFails _ _ _ _ := .of_lines rfl
  moveLine s y n m hm := by
    rw [line_moveLine]; split
    · next h =>
      subst h
      rw [State.movedLine, if_neg hm]
      exact ⟨rfl, rfl⟩
    · exact ⟨rfl, rfl⟩
  settles _ _ _ := .of_lines rfl
  active _ _ := .of_lines rfl
  freeze s _ _ _ n _ := by rw [line_mapLines]; exact ⟨rfl, rfl⟩

theorem arrival_offKept (s : State) : OffKept s (arrival s) := (offKept_closed.search fun _ _ => .of_lines rfl).arrival s

/-! ### The probes that STOP ends (R20) -/

/-- The record of a PROBING line whose probe STOP has ended (R20). -/
def Line.probeStopped (l : Line) : Line :=
  { l.sentTo .off with
    state := .isolated, cause := .protective, passCount := 0, waiting := none, timer := l.timerAfterShort false }

theorem startRetry_eq (s : State) (n : LineNo) :
    startRetry n s = s.setLine n { s.line n with timer := (s.line n).timerAfterShort s.runs } := by
  unfold startRetry Line.timerAfterShort State.startedTimer Line.fullDelay
  dsimp only; split
  · rfl
  · rw [setLine_self]

/-- The end of the probe of a line with no learn job (R20). -/
theorem endProbe_quiet (s : State) (n : LineNo) (c : IsolationCause) (h : s.learnsOn n = false) : endProbe n c s =
    { s.setLine n { (s.line n).sentTo .off with state := .isolated, cause := c, passCount := 0 } with
      move := s.moveAfter n .off } := by
  unfold endProbe
  simp only [orderSelector_quiet s n .off h]
  simp [State.setLine]

/-- One probe that STOP ends, once the learn job has ended (R20). -/
theorem stopProbe_eq (s : State) (n : LineNo) (hp : (s.line n).state = .probing) (hj : s.chan.job = none)
    (hr : s.runs = false) : stopProbe s n =
      { s.setLine n (s.line n).probeStopped with
        move := s.moveAfter n .off
        chan := { s.chan with verify := s.chan.verify.filter (· ≠ .line n) }
        ports := handedOn (s.line n).waiting .restoreAborted s.ports } := by
  have quiet : s.learnsOn n = false := by simp [State.learnsOn, hj]
  have timer : ∀ l : Line, l.cfg = (s.line n).cfg → l.retryCount = (s.line n).retryCount → l.timer = (s.line n).timer →
      l.timerAfterShort false = (s.line n).timerAfterShort false := by
    intro l hc hr ht
    simp only [Line.timerAfterShort, hc, hr, ht]
  unfold stopProbe
  rw [if_pos hp]
  dsimp only
  rw [endProbe_quiet s n .protective quiet, startRetry_eq, endWaiting_eq]
  have runs : s.mc.mode ≠ .settling ∧ s.mc.mode ≠ .active := by simpa [State.runs] using hr
  simp [withdrawVerify, State.setLine, State.runs, runs, timer, Line.probeStopped]

/-- The ports after the waiting RESTOREs of lines, one after another, have been handed on with an outcome (R16, R20). -/
def restoresEnded (o : CompletionOutcome) (s : State) (l : List LineNo) (x : PerPort PortState) : PerPort PortState :=
  l.foldl (fun x n => handedOn (s.line n).waiting o x) x

/-- What the ends of the probes of a list of lines make of the state (R20). -/
structure ProbesStopped (l : List LineNo) (s t : State) : Prop where
  line : ∀ m, t.line m = if m ∈ l ∧ (s.line m).state = .probing then (s.line m).probeStopped else s.line m
  chan : t.chan = { s.chan with verify := t.chan.verify }
  verify : ∀ x ∈ t.chan.verify, x ∈ s.chan.verify ∧ ∀ n ∈ l, (s.line n).state = .probing → x ≠ .line n
  work : LineWork s t
  faults : t.faults = s.faults
  ports : t.ports = restoresEnded .restoreAborted s (l.filter fun n => (s.line n).state = .probing) s.ports
  idle : s.move = none → t.move = none
  waits : ∀ w k, s.move = some w → k ∈ w → (s.line k).state ≠ .probing → ∃ v, t.move = some v ∧ k ∈ v

/-- The probe of one line, or none, ends. -/
theorem stopProbe_stopped (s : State) (n : LineNo) (hj : s.chan.job = none) (hr : s.runs = false) :
    ProbesStopped [n] s (stopProbe s n) := by
  by_cases hp : (s.line n).state = .probing
  · rw [stopProbe_eq s n hp hj hr]
    refine ⟨fun m => ?_, rfl, fun x hx => ?_, ⟨rfl, rfl, rfl, rfl, rfl⟩, rfl, ?_, fun h => ?_, fun w k hw hk hn => ?_⟩
    · refine (line_setLine s n m _).trans ?_
      by_cases h : m = n
      · subst h; simp [hp]
      · simp [h]
    · have : x ∈ s.chan.verify ∧ x ≠ .line n := by simpa using hx
      simpa [hp] using this
    · simp [restoresEnded, hp]
    · dsimp only; unfold State.moveAfter; split <;> simp [h]
    · have other : k ≠ n := fun e => hn (e ▸ hp)
      dsimp only; unfold State.moveAfter; split
      · exact ⟨w, hw, hk⟩
      · exact ⟨w.filter (· ≠ n), by rw [hw]; rfl, by simp [hk, other]⟩
  · have same : stopProbe s n = s := by unfold stopProbe; rw [if_neg hp]
    rw [same]
    refine ⟨fun m => ?_, rfl, fun x hx => ⟨hx, ?_⟩, .refl s, rfl, ?_, id, fun w k hw hk _ => ⟨w, hw, hk⟩⟩
    · rw [if_neg]
      rintro ⟨hm, h⟩
      rw [List.mem_singleton.mp hm] at h
      exact hp h
    · simp [hp]
    · simp [restoresEnded, hp]

theorem foldl_stopProbe (l : List LineNo) (hl : l.Nodup) (s : State) (hj : s.chan.job = none) (hr : s.runs = false) :
    ProbesStopped l s (l.foldl stopProbe s) := by
  induction l generalizing s with
  | nil =>
    exact ⟨fun m => by simp, rfl, fun x hx => ⟨hx, by simp⟩, .refl s, rfl, rfl, id, fun w k hw hk _ => ⟨w, hw, hk⟩⟩
  | cons n l ih =>
    obtain ⟨fresh, rest⟩ := List.nodup_cons.mp hl
    have one := stopProbe_stopped s n hj hr
    have all := ih rest (stopProbe s n) (by rw [one.chan]; exact hj) (by rw [one.work.runs]; exact hr)
    have other : ∀ m ∈ l, (stopProbe s n).line m = s.line m := fun m hm => by
      have : m ≠ n := fun e => fresh (e ▸ hm)
      rw [one.line, if_neg (by simp [this])]
    refine ⟨fun m => ?_, ?_, fun x hx => ?_, one.work.trans all.work, all.faults.trans one.faults, ?_,
      fun h => all.idle (one.idle h), fun w k hw hk hn => ?_⟩
    · rw [List.foldl_cons, all.line]
      by_cases hm : m ∈ l
      · rw [other m hm]
        simp [hm]
      · rw [if_neg (by simp [hm]), one.line]
        simp [hm]
    · rw [List.foldl_cons, all.chan, one.chan]
    · obtain ⟨hv, none⟩ := all.verify x hx
      obtain ⟨hs, first⟩ := one.verify x hv
      refine ⟨hs, fun m hm hp => ?_⟩
      obtain rfl | hm := List.mem_cons.mp hm
      · exact first m (by simp) hp
      · exact none m hm (by rw [other m hm]; exact hp)
    · have lines : ∀ m ∈ l, (decide (((stopProbe s n).line m).state = .probing)) = decide ((s.line m).state = .probing) :=
        fun m hm => by rw [other m hm]
      have probes : l.filter (fun m => ((stopProbe s n).line m).state = .probing) =
          l.filter fun m => (s.line m).state = .probing := List.filter_congr lines
      have ended : ∀ (k : List LineNo), (∀ m ∈ k, m ∈ l) → ∀ x,
          restoresEnded .restoreAborted (stopProbe s n) k x = restoresEnded .restoreAborted s k x := by
        intro k
        induction k with
        | nil => exact fun _ _ => rfl
        | cons m k ih =>
          intro hk x
          simp only [restoresEnded, List.foldl_cons, other m (hk m (by simp))]
          exact ih (fun j hj => hk j (by simp [hj])) _
      rw [List.foldl_cons, all.ports, one.ports, probes, ended _ fun m hm => (List.mem_filter.mp hm).1]
      by_cases hp : (s.line n).state = .probing
      · simp [restoresEnded, hp]
      · simp [restoresEnded, hp]
    · obtain ⟨v, hv, hkv⟩ := one.waits w k hw hk hn
      refine all.waits v k hv hkv ?_
      rw [one.line]
      split
      · simp [Line.probeStopped]
      · exact hn

/-! ### The ports after completions (R143) -/

/-- Completions touch the in-flight count and the completion list of a port alone. -/
def SameButCompletions (x y : PerPort PortState) : Prop :=
  ∀ p, y.get p = { x.get p with inFlight := (y.get p).inFlight, completions := (y.get p).completions }

theorem SameButCompletions.refl (x : PerPort PortState) : SameButCompletions x x := fun _ => rfl

theorem SameButCompletions.trans {x y z : PerPort PortState} (h : SameButCompletions x y) (g : SameButCompletions y z) :
    SameButCompletions x z := fun p => by rw [g p, h p]

theorem handedOn_completions (r : Option Requester) (o : CompletionOutcome) (x : PerPort PortState) :
    SameButCompletions x (handedOn r o x) := by
  intro p
  unfold handedOn
  cases r with
  | none => rfl
  | some r =>
    dsimp only; split
    · by_cases h : p = r.port
      · subst h; simp
      · simp [PerPort.get_set_ne _ _ _ _ h]
    · rfl

theorem restoresEnded_completions (o : CompletionOutcome) (s : State) (l : List LineNo) (x : PerPort PortState) :
    SameButCompletions x (restoresEnded o s l x) := by
  induction l generalizing x with
  | nil => exact .refl x
  | cons n l ih => exact (handedOn_completions _ o x).trans (ih _)

/-- Eligibility reads no completion (R133). -/
theorem anyEligible_completions (hf : t.faults = s.faults) (hp : SameButCompletions s.ports t.ports) (p : Port) :
    t.anyEligible p = s.anyEligible p := by
  have same : t.port p = { s.port p with inFlight := (t.port p).inFlight, completions := (t.port p).completions } := hp p
  have eligible : t.eligible p = s.eligible p := by
    funext c
    unfold State.eligible PortState.unblocked
    rw [hf, same]
  simp only [State.anyEligible, State.lowestEligible, eligible]

/-! ### The entry to STOPPING (R154) -/

/-- The entry to STOPPING up to the end of the probes (R9, R35, R58). -/
def stopBegun (s : State) : State :=
  (endLearn .learnAborted (abandonRound { s with mc.mode := .stopping })).mapLines fun l => { l with timer := l.timer.freeze }

/-- The state at the entry to STOPPING when the probes have ended (R20). -/
def probesEnded (s : State) : State := allLines.foldl stopProbe (stopBegun s)

theorem enterStopping_eq (s : State) :
    enterStopping s = checkStopped (signalAll (reportMove arrival (probesEnded s))) := rfl

/-- What the entry to STOPPING leaves before the probes end. -/
structure StopBegun (s t : State) : Prop where
  line : ∀ n, ∃ a, t.line n = { s.line n with timer := (s.line n).timer.freeze, learn := a }
  round : t.chan.round = none
  confirm : t.chan.confirm = []
  job : t.chan.job = none
  inFlight : t.chan.inFlight.isSome = s.chan.inFlight.isSome
  mc : t.mc = { s.mc with mode := .stopping }
  rest : t.co = s.co ∧ t.move = s.move ∧ t.faults = s.faults ∧ t.store = s.store
  ports : t.ports = handedOn (s.chan.job.map (·.requester)) .learnAborted s.ports

theorem stopBegun_parts (s : State) : StopBegun s (stopBegun s) := by
  unfold stopBegun
  cases hj : s.chan.job with
  | none =>
    rw [endLearn_none (abandonRound { s with mc.mode := .stopping }) _ hj]
    refine ⟨fun n => ⟨(s.line n).learn, ?_⟩, rfl, rfl, hj, rfl, rfl, ⟨rfl, rfl, rfl, rfl⟩, by simp [handedOn, State.mapLines, abandonRound, hj]⟩
    rw [line_mapLines]
    rfl
  | some j =>
    rw [endLearn_eq (abandonRound { s with mc.mode := .stopping }) _ hj]
    refine ⟨fun n => ?_, rfl, rfl, rfl, by simp [Channel.jobEnded, State.mapLines, abandonRound], rfl,
      ⟨rfl, rfl, rfl, rfl⟩, by rw [hj]; rfl⟩
    rw [line_mapLines]
    refine ⟨if n = j.line then none else (s.line n).learn, ?_⟩
    have line := line_setLine s j.line n { s.line j.line with learn := none }
    split
    · next h =>
      rw [if_pos h] at line
      subst h
      exact congrArg (fun l : Line => { l with timer := l.timer.freeze }) line
    · next h =>
      rw [if_neg h] at line
      exact congrArg (fun l : Line => { l with timer := l.timer.freeze }) line

theorem Closed.stopEnds {R : State → State → Prop} (hR : Closed R) (ha : ∀ s, R s (arrival s)) (s : State) :
    R s (Machine.checkStopped (signalAll (Machine.reportMove arrival s))) :=
  hR.trans (hR.trans (hR.reportMove s ha) (hR.table (signalAll_same _).table)) (hR.checkStopped _)

/-- Where nothing is operated on, the end of a move tells nobody (R7). -/
theorem reportMove_unoperated (arr : Arrive) (h : s.co.op = none) :
    reportMove arr s = s ∨ reportMove arr s = { s with move := none } := by
  unfold reportMove; split
  · right
    unfold moveDone
    rw [show ({ s with move := none } : State).co.op = none from h]
  · exact .inl rfl

/-- The signal to the ports at the entry to STOPPING, and the one at the entry to STANDBY behind it, are one (R140). -/
theorem checkStopped_signalAll (s : State) : (checkStopped (signalAll s)).faults = s.faults ∧
    (∀ p, (checkStopped (signalAll s)).port p = { s.port p with latch := (s.port p).latch || s.anyEligible p }) ∧
    ∀ p, (checkStopped (signalAll s)).anyEligible p = s.anyEligible p := by
  unfold checkStopped; split
  · have same : ∀ u : State, (enterStandby u).faults = u.faults ∧ (∀ p, (enterStandby u).anyEligible p = u.anyEligible p) ∧
        ∀ p, (enterStandby u).port p = { u.port p with latch := (u.port p).latch || u.anyEligible p } :=
      fun u => ⟨(signalAll_same _).faults, fun p => anyEligible_signalAll _ p, fun p => port_signalAll _ p⟩
    obtain ⟨faults, eligible, port⟩ := same (signalAll s)
    refine ⟨faults.trans (signalAll_same s).faults, fun p => ?_, fun p => (eligible p).trans (anyEligible_signalAll s p)⟩
    rw [port, port_signalAll, anyEligible_signalAll]
    simp
  · exact ⟨(signalAll_same s).faults, port_signalAll s, anyEligible_signalAll s⟩

/-- A timer that does not run rests as it is. -/
theorem restsAs_frozen {a b : RetryTimer} {r : Bool} (h : b.restsAs a r = true) (hf : a.freeze = a) : b = a := by
  simp only [RetryTimer.restsAs, Bool.or_eq_true, decide_eq_true_eq, Bool.and_eq_true] at h
  obtain rfl | ⟨-, rfl⟩ := h
  · rfl
  · exact hf

section Stop
variable (s)

theorem probesEnded_parts : ProbesStopped allLines (stopBegun s) (probesEnded s) := by
  have b := stopBegun_parts s
  refine foldl_stopProbe allLines nodup_allLines (stopBegun s) b.job ?_
  simp [State.runs, b.mc]

theorem probesEnded_mode : (probesEnded s).mc = { s.mc with mode := .stopping } :=
  (probesEnded_parts s).work.mc.trans (stopBegun_parts s).mc

theorem enterStopping_stopped : Stopped (probesEnded s) (enterStopping s) := by
  rw [enterStopping_eq]
  exact staysStopped_closed.stopEnds arrival_staysStopped _ (.inl (by rw [probesEnded_mode]))

theorem enterStopping_rested : Rested (probesEnded s) (enterStopping s) := by
  rw [enterStopping_eq]
  exact rested_closed.stopEnds arrival_rested _

theorem enterStopping_off : OffKept (probesEnded s) (enterStopping s) := by
  rw [enterStopping_eq]
  exact offKept_closed.stopEnds arrival_offKept _

/-- The record of a line when the probes have ended: its probe ended where it had one, its timer frozen (R9, R20). -/
theorem line_probesEnded (n : LineNo) :
    ((s.line n).state = .probing →
      KeptLine { s.line n with state := .isolated, cause := .protective, waiting := none, passCount := 0 }
          ((probesEnded s).line n) ∧
        ((probesEnded s).line n).selector = .off ∧ ((probesEnded s).line n).state = .isolated ∧
        ((probesEnded s).line n).timer = ((s.line n).timerAfterShort false).freeze) ∧
    ((s.line n).state ≠ .probing →
      KeptLine (s.line n) ((probesEnded s).line n) ∧ ((probesEnded s).line n).timer = (s.line n).timer.freeze) := by
  obtain ⟨a, begun⟩ := (stopBegun_parts s).line n
  have line := (probesEnded_parts s).line n
  rw [begun] at line
  refine ⟨fun hp => ?_, fun hp => ?_⟩
  · rw [if_pos ⟨mem_allLines n, hp⟩] at line
    rw [line]
    unfold Line.probeStopped
    refine ⟨?_, by simp, rfl, ?_⟩
    · rw [sentTo_eq]
      exact ⟨_, _, _, _, _, _, rfl⟩
    · unfold Line.timerAfterShort
      dsimp only; split <;> rfl
  · rw [if_neg fun h => hp h.2] at line
    rw [line]
    exact ⟨⟨_, _, _, _, _, _, rfl⟩, rfl⟩

theorem enterStopping_lines (n : LineNo) :
    ((s.line n).state = .probing →
      ({ s.line n with state := .isolated, cause := .protective, waiting := none, passCount := 0 } : Line).keptIn
          ((enterStopping s).line n) ∧
        ((enterStopping s).line n).selector = .off ∧ .line n ∉ (enterStopping s).chan.verify ∧
        ((enterStopping s).line n).timer = ((s.line n).timerAfterShort false).freeze) ∧
    ((s.line n).state ≠ .probing →
      (s.line n).keptIn ((enterStopping s).line n) ∧ ((enterStopping s).line n).timer = (s.line n).timer.freeze) := by
  obtain ⟨probing, other⟩ := line_probesEnded s n
  have kept := (enterStopping_rested s).line n
  have timer := (enterStopping_rested s).timer n
  refine ⟨fun hp => ?_, fun hp => ?_⟩
  · obtain ⟨line, selector, state, frozen⟩ := probing hp
    have off := (enterStopping_off s n (by rw [state]; decide)).2
    refine ⟨(line.trans kept).keptIn, off.trans selector, fun hv => ?_, ?_⟩
    · obtain ⟨a, begun⟩ := (stopBegun_parts s).line n
      have gone := ((probesEnded_parts s).verify _ ((enterStopping_stopped s).verify n hv)).2 n (mem_allLines n)
      exact gone (by rw [begun]; exact hp) rfl
    · rw [frozen] at timer
      exact restsAs_frozen timer (freeze_freeze _)
  · obtain ⟨line, frozen⟩ := other hp
    rw [frozen] at timer
    exact ⟨(line.trans kept).keptIn, restsAs_frozen timer (freeze_freeze _)⟩

theorem not_running_freeze (u : RetryTimer) (ms : Nat) : u.freeze ≠ .running ms := by cases u <;> simp [RetryTimer.freeze]

theorem enterStopping_not_running (n : LineNo) (ms : Nat) : ((enterStopping s).line n).timer ≠ .running ms := by
  obtain ⟨probing, other⟩ := enterStopping_lines s n
  by_cases hp : (s.line n).state = .probing
  · rw [(probing hp).2.2.2]; exact not_running_freeze _ ms
  · rw [(other hp).2]; exact not_running_freeze _ ms

/-- Nothing in flight: mode control enters STANDBY at once (R154). -/
theorem enterStopping_standby (hf : s.chan.inFlight = none) (ho : s.co.op = none) :
    (enterStopping s).mc.mode = .standby := by
  have b := stopBegun_parts s
  have op : (probesEnded s).co.op = none := by rw [(probesEnded_parts s).work.co, b.rest.1]; exact ho
  have free : (probesEnded s).chan.inFlight = none := by
    have := b.inFlight
    rw [(probesEnded_parts s).chan]
    simpa [hf] using this
  have quiet : ∀ u : State, u.co.op = none → u.chan.inFlight = none → u.mc.mode = .stopping →
      (checkStopped (signalAll u)).mc.mode = .standby := by
    intro u ho hf hm
    have same := signalAll_same u
    unfold checkStopped
    rw [if_pos ⟨by rw [same.mc]; exact hm, by rw [same.chan, hf]; rfl, by rw [same.co, ho]; rfl⟩]
    unfold enterStandby
    rw [(signalAll_same _).mc]
    rfl
  have mode : (probesEnded s).mc.mode = .stopping := by rw [probesEnded_mode]
  rw [enterStopping_eq]
  generalize probesEnded s = u at op free mode
  obtain e | e := reportMove_unoperated arrival op
  · rw [e]; exact quiet _ op free mode
  · rw [e]; exact quiet _ op free mode

/-- The move that is waited for outlasts the ends of the probes: it waits for a line with no probe, or there is none. -/
def State.moveOutlastsProbes (s : State) : Prop := ∀ l, s.move = some l → ∃ n ∈ l, (s.line n).state ≠ .probing

/-- STOP where no move ends with the probes: the table, the completions and the latches (R16, R58, R140). -/
theorem enterStopping_ports (hm : s.moveOutlastsProbes) : (enterStopping s).faults = s.faults ∧
    ∀ p, (enterStopping s).port p =
      { (restoresEnded .restoreAborted s (allLines.filter fun n => (s.line n).state = .probing)
          (handedOn (s.chan.job.map (·.requester)) .learnAborted s.ports)).get p with
        latch := (s.port p).latch || s.anyEligible p } := by
  have b := stopBegun_parts s
  have f := probesEnded_parts s
  obtain ⟨-, move, faults, -⟩ := b.rest
  have state : ∀ n, ((stopBegun s).line n).state = (s.line n).state := fun n => by
    obtain ⟨a, e⟩ := b.line n
    rw [e]
  have waiting : ∀ n, ((stopBegun s).line n).waiting = (s.line n).waiting := fun n => by
    obtain ⟨a, e⟩ := b.line n
    rw [e]
  have waits : (probesEnded s).move ≠ some [] := by
    intro hs
    cases h : s.move with
    | none => simp [f.idle (move.trans h)] at hs
    | some l =>
      obtain ⟨n, hn, hp⟩ := hm l h
      obtain ⟨v, hv, hk⟩ := f.waits l n (move.trans h) hn (by rw [state]; exact hp)
      rw [hs] at hv
      rw [← Option.some.inj hv] at hk
      cases hk
  have idle : reportMove arrival (probesEnded s) = probesEnded s := reportMove_idle _ _ waits
  have exact : enterStopping s = checkStopped (signalAll (probesEnded s)) := by rw [enterStopping_eq, idle]
  have ports : (probesEnded s).ports = restoresEnded .restoreAborted s
      (allLines.filter fun n => (s.line n).state = .probing)
      (handedOn (s.chan.job.map (·.requester)) .learnAborted s.ports) := by
    refine f.ports.trans ?_
    rw [b.ports]
    simp only [restoresEnded, state, waiting]
  have completions : SameButCompletions s.ports (probesEnded s).ports := by
    rw [ports]
    exact (handedOn_completions _ _ _).trans (restoresEnded_completions _ s _ _)
  have table : (probesEnded s).faults = s.faults := f.faults.trans faults
  obtain ⟨faults, port, -⟩ := checkStopped_signalAll (probesEnded s)
  rw [exact]
  refine ⟨faults.trans table, fun p => ?_⟩
  rw [port, anyEligible_completions table completions, ← ports]
  have latch : ((probesEnded s).port p).latch = (s.port p).latch := by
    have := completions p
    rw [show (probesEnded s).port p = _ from this]
    rfl
  rw [latch]
  rfl

end Stop

theorem anyEligible_answer (s : State) (p q : Port) (r : Reply) : (s.answer p r).anyEligible q = s.anyEligible q := by
  cases p <;> cases q <;> rfl

/-- A reply is all that a port gets with the answer. -/
theorem port_answer (s : State) (p q : Port) (r : Reply) :
    (s.answer p r).port q = { s.port q with reply := ((s.answer p r).port q).reply } := by
  by_cases h : q = p
  · subst h; rw [port_answer_same]
  · rw [port_answer_ne _ _ _ _ h]

/-- The completions handed on one after another, as the statements write them. -/
theorem ports_foldl_completeIfAny (o : CompletionOutcome) (s : State) (l : List LineNo) (u : State) :
    (l.foldl (fun u n => completeIfAny (s.line n).waiting o u) u).ports = restoresEnded o s l u.ports := by
  induction l generalizing u with
  | nil => rfl
  | cons n l ih => rw [List.foldl_cons, ih, completeIfAny_eq]; rfl

theorem alarmPending_eq (s : State) : s.alarmPending = decide
    ((∃ r ∈ s.faults.records, r.key.cls ≤ 2 ∧ (r.lifecycle = .activeUnack ∨ r.lifecycle = .clearedUnack)) ∨
      ∃ d ∈ s.faults.deferred, d.key.cls ≤ 2) := by
  rw [Bool.eq_iff_iff]
  simp [State.alarmPending, FaultRecord.unacknowledged]
  exact Iff.rfl

end Sys2Proof.Machine

open Sys2Proof.Machine in
/-- Settles O39: the ends of the probes as one fold, what stands where supervision has stopped, and the ports exactly. -/
theorem stopEndsTheWorkThatIsNotProtective : Obligations.StopEndsTheWorkThatIsNotProtective := by
  intro p tag s ht
  have loading : s.mc.mode ≠ .loading := fun h => by
    have := ht.2.2.2.1 h
    cases this
  have taken : exec (.stop p tag []) s = .next ((stopMode s).1.answer p (stopMode s).2) := takeRequest_taken s ht stopMode
  rw [taken]
  refine ⟨fun he => by simp [stopMode, loading, he, bare], fun he => ⟨fun hr => ?_, fun hr alarm ha => ⟨fun h => ?_, fun h => ?_⟩⟩⟩
  · have stands : s.mc.mode = .standby ∨ s.mc.mode = .stopping := by
      cases hm : s.mc.mode <;> simp_all [State.runs]
    simp [stopMode, loading, he, stands, bare]
  · have stands : ¬(s.mc.mode = .standby ∨ s.mc.mode = .stopping) := by
      cases hm : s.mc.mode <;> simp_all [State.runs]
    simp [stopMode, loading, he, stands, ← ha, alarmPending_eq s, h, bare]
  · have stands : ¬(s.mc.mode = .standby ∨ s.mc.mode = .stopping) := by
      cases hm : s.mc.mode <;> simp_all [State.runs]
    have stops : stopMode s = (enterStopping s, bare .ok) := by
      simp [stopMode, loading, he, stands, ← ha, alarmPending_eq s, h]
    have stopped := enterStopping_stopped s
    have b := stopBegun_parts s
    have f := probesEnded_parts s
    have mode := probesEnded_mode s
    have inFlight : (probesEnded s).chan.inFlight.isSome = s.chan.inFlight.isSome := by rw [f.chan]; exact b.inFlight
    obtain ⟨-, port, eligible⟩ := checkStopped_signalAll (reportMove arrival (probesEnded s))
    rw [← enterStopping_eq] at port eligible
    have waits : s.chan.inFlight.isSome → (enterStopping s).mc.mode = .stopping := fun hf =>
      (stopped.waits (inFlight.trans hf)).trans (congrArg (·.mode) mode)
    have round : (enterStopping s).chan.round = none := stopped.round.trans (by rw [f.chan]; exact b.round)
    have confirm : (enterStopping s).chan.confirm = [] := stopped.confirm (by rw [f.chan]; exact b.confirm)
    have job : (enterStopping s).chan.job = none := stopped.job (by rw [f.chan]; exact b.job)
    have mc : (enterStopping s).mc = { s.mc with mode := (enterStopping s).mc.mode } := stopped.mc.trans (by rw [mode])
    have standby := enterStopping_standby s
    have store := (enterStopping_block s).store
    have ports := enterStopping_ports s
    have lines := enterStopping_lines s
    have running := enterStopping_not_running s
    have latched : ∀ q, (enterStopping s).anyEligible q = true → ((enterStopping s).port q).latch = true := fun q hq => by
      rw [port, ← eligible, hq]
      exact Bool.or_true _
    have rests := stopped.mode
    rw [stops]
    clear stopped port eligible
    generalize enterStopping s = t at *
    refine ⟨_, rfl, reply_answer _ p (bare .ok), round, confirm, job, mc, store, rests, waits,
      fun hf ho _ => standby hf ho, fun q hq => ?_, fun hm => ?_, fun n => ?_⟩
    · rw [anyEligible_answer] at hq
      rw [port_answer]
      exact latched q hq
    · obtain ⟨faults, port⟩ := ports hm
      refine ⟨faults, fun v hv q => ?_⟩
      have handed : v.ports = restoresEnded .restoreAborted s (allLines.filter fun n => (s.line n).state = .probing)
          (handedOn (s.chan.job.map (·.requester)) .learnAborted s.ports) := by
        rw [hv, ports_foldl_completeIfAny, completeIfAny_eq]
      rw [← handed] at port
      rw [port_answer, port]
      exact ⟨rfl, rfl, rfl⟩
    · obtain ⟨probing, other⟩ := lines n
      rw [line_answer]
      exact ⟨probing, other, running n⟩
end

section
/-! PROOFS. The load: what each judged record writes, and the end of LOADING as an exact next state (O45). -/

namespace Sys2Proof.Machine

variable {s t u : State}

/-! ### Work on lines that leaves the fault table -/

/-- The line supervisor has worked, and the fault table stands. -/
structure QuietWork (s t : State) : Prop where
  work : LineWork s t
  faults : t.faults = s.faults

theorem QuietWork.refl (s : State) : QuietWork s s := ⟨.refl s, rfl⟩

theorem QuietWork.trans (h : QuietWork s t) (g : QuietWork t u) : QuietWork s u :=
  ⟨h.work.trans g.work, g.faults.trans h.faults⟩

theorem setLine_quiet (s : State) (n : LineNo) (l : Line) : QuietWork s (s.setLine n l) := ⟨setLine_work s n l, rfl⟩

theorem orderSelector_quietWork (s : State) (n : LineNo) (pos : Selector) : QuietWork s (orderSelector n pos s) :=
  ⟨orderSelector_work s n pos, (orderSelector_frame s n pos).1⟩

theorem foldl_quiet {α : Type} (f : State → α → State) (h : ∀ s a, QuietWork s (f s a)) (l : List α) (s : State) :
    QuietWork s (l.foldl f s) := by
  induction l generalizing s with
  | nil => exact .refl s
  | cons a l ih => exact (h s a).trans (ih _)

theorem startProbe_id_quiet (s : State) (n : LineNo) : QuietWork s (startProbe id n s) := by
  rw [startProbe_eq, placeVerify_id]
  exact (orderSelector_quietWork s n .test).trans ⟨⟨rfl, rfl, rfl, rfl, rfl⟩, rfl⟩

theorem dueStarted_quiet (s : State) : QuietWork s (dueStarted s) := by
  unfold dueStarted; split
  · exact .refl s
  · refine foldl_quiet _ (fun u n => ?_) _ s
    split
    · exact startProbe_id_quiet u n
    · exact .refl u

theorem establishLine_quiet (s : State) (n : LineNo) : QuietWork s (establishLine s n) := by
  unfold establishLine; dsimp only; split
  · exact (setLine_quiet s n _).trans <| (setLine_quiet _ n _).trans (orderSelector_quietWork _ n _)
  · exact (setLine_quiet s n _).trans (orderSelector_quietWork _ n _)

/-! ### One line of a fold -/

/-- In a fold of work on one line after another, a line of the list has its own work done once, on its record as it stood
but for the learn accumulator. -/
theorem foldl_onlyLine_at {f : State → LineNo → State} (hf : ∀ s n, OnlyLine n s (f s n)) (l : List LineNo) (hl : l.Nodup)
    (s : State) {n : LineNo} (hn : n ∈ l) : ∃ v a b, LineWork s v ∧ v.line n = { s.line n with learn := a } ∧
      (l.foldl f s).line n = { (f v n).line n with learn := b } := by
  have outside : ∀ (l : List LineNo) (s : State), n ∉ l → ∃ a, (l.foldl f s).line n = { s.line n with learn := a } := by
    intro l
    induction l with
    | nil => exact fun s _ => ⟨(s.line n).learn, rfl⟩
    | cons m l ih =>
      intro s hn
      obtain ⟨hne, hnl⟩ := not_or.mp fun e => hn (List.mem_cons.mpr e)
      obtain ⟨a, e⟩ := ih (f s m) hnl
      obtain ⟨b, e'⟩ := (hf s m).others n hne
      exact ⟨a, by rw [List.foldl_cons, e, e']⟩
  induction l generalizing s with
  | nil => cases hn
  | cons m l ih =>
    obtain ⟨hm, nodup⟩ := List.nodup_cons.mp hl
    by_cases h : n = m
    · subst h
      obtain ⟨b, e⟩ := outside l (f s n) hm
      exact ⟨s, (s.line n).learn, b, .refl s, rfl, e⟩
    · obtain ⟨v, a, b, work, before, after⟩ := ih nodup (f s m) ((List.mem_cons.mp hn).resolve_left h)
      obtain ⟨c, e⟩ := (hf s m).others n h
      exact ⟨v, a, b, (hf s m).work.trans work, by rw [before, e], after⟩

/-! ### The end of LOADING: amplifiers (R72, R73) -/

/-- The record of an amplifier established at the end of LOADING (R72, R73). -/
def Amp.established (x : Amp) : Amp :=
  if x.cfg.enabled then { x with state := if x.cfg.role = .duty then .healthy else .free, stamp := x.stamp + 1 } else x

theorem amp_establishAmp (s : State) (j k : AmpNo) (h : (s.amp j).state = .disabled) :
    (establishAmp s j).amp k = if k = j then (s.amp j).established else s.amp k := by
  have set : ∀ st, st ≠ .disabled → (setAmpState j st s).amp k =
      if k = j then { s.amp j with state := st, stamp := (s.amp j).stamp + 1 } else s.amp k := by
    intro st hst
    unfold setAmpState
    rw [if_neg (by rw [h]; exact hst.symm)]
    exact amp_setAmp s j k _
  unfold establishAmp Amp.established; dsimp only
  cases he : (s.amp j).cfg.enabled with
  | false =>
    rw [if_pos (by rfl)]
    split
    · next e => rw [e]; rfl
    · rfl
  | true =>
    rw [if_neg (by simp)]
    cases hr : (s.amp j).cfg.role with
    | duty => exact set _ (by decide)
    | standby => exact set _ (by decide)

theorem establishAmp_cfg (s : State) (j k : AmpNo) : ((establishAmp s j).amp k).cfg = (s.amp k).cfg := by
  have set : ∀ st, ((setAmpState j st s).amp k).cfg = (s.amp k).cfg := by
    intro st
    rw [amp_setAmpState]
    split
    · next e => rw [e.1]
    · rfl
  unfold establishAmp; dsimp only
  split
  · rfl
  · split
    · exact set _
    · exact set _

/-- What the establishment of amplifiers leaves but for their records. -/
structure AmpsAlone (s t : State) : Prop where
  lines : t.lines = s.lines
  mc : t.mc = s.mc
  co : t.co = s.co
  store : t.store = s.store
  faults : t.faults = s.faults

theorem AmpsAlone.trans (h : AmpsAlone s t) (g : AmpsAlone t u) : AmpsAlone s u :=
  ⟨g.lines.trans h.lines, g.mc.trans h.mc, g.co.trans h.co, g.store.trans h.store, g.faults.trans h.faults⟩

theorem setAmpState_alone (s : State) (k : AmpNo) (st : AmpState) : AmpsAlone s (setAmpState k st s) := by
  unfold setAmpState; dsimp only
  split <;> exact ⟨rfl, rfl, rfl, rfl, rfl⟩

theorem establishAmp_alone (s : State) (k : AmpNo) : AmpsAlone s (establishAmp s k) := by
  unfold establishAmp; dsimp only; split
  · exact ⟨rfl, rfl, rfl, rfl, rfl⟩
  · split
    · exact setAmpState_alone s k _
    · exact setAmpState_alone s k _

theorem establishAmp_other (s : State) {j k : AmpNo} (h : k ≠ j) : (establishAmp s j).amp k = s.amp k := by
  have set : ∀ st, (setAmpState j st s).amp k = s.amp k := fun st => by rw [amp_setAmpState, if_neg fun e => h e.1]
  unfold establishAmp; dsimp only
  split
  · rfl
  · split <;> exact set _

/-- Each DISABLED amplifier of the list is established once, and no other is touched. -/
theorem foldl_establishAmp_eq (l : List AmpNo) (hl : l.Nodup) (s : State) : AmpsAlone s (l.foldl establishAmp s) ∧
    (∀ k, ((l.foldl establishAmp s).amp k).cfg = (s.amp k).cfg) ∧
    ∀ k, (k ∉ l → (l.foldl establishAmp s).amp k = s.amp k) ∧
      (k ∈ l → (s.amp k).state = .disabled → (l.foldl establishAmp s).amp k = (s.amp k).established) := by
  induction l generalizing s with
  | nil => exact ⟨⟨rfl, rfl, rfl, rfl, rfl⟩, fun _ => rfl, fun k => ⟨fun _ => rfl, fun h => by cases h⟩⟩
  | cons j l ih =>
    obtain ⟨fresh, nodup⟩ := List.nodup_cons.mp hl
    obtain ⟨alone, cfg, amps⟩ := ih nodup (establishAmp s j)
    refine ⟨(establishAmp_alone s j).trans alone, fun k => (cfg k).trans (establishAmp_cfg s j k), fun k => ⟨fun hk => ?_,
      fun hk hd => ?_⟩⟩
    · obtain ⟨hne, hnl⟩ := not_or.mp fun e => hk (List.mem_cons.mpr e)
      exact ((amps k).1 hnl).trans (establishAmp_other s hne)
    · by_cases h : k = j
      · subst h
        refine ((amps k).1 fresh).trans ?_
        rw [amp_establishAmp s k k hd, if_pos rfl]
      · have before := establishAmp_other s h
        have after := (amps k).2 ((List.mem_cons.mp hk).resolve_left h) (by rw [before]; exact hd)
        exact after.trans (by rw [before])

/-! ### The end of LOADING: lines (R3) -/

/-- A line established at the end of LOADING: its selector ordered once (R3, R5). -/
theorem line_establishLine_eq (s : State) (n : LineNo) : ∃ a, (establishLine s n).line n =
    let c := s.settledConfig n
    { ({ s.line n with
          cfg := c, current := c.home, state := if c.enabled then .connected else (s.line n).state } : Line).sentTo
        (if c.enabled then .bus c.home else .off) with
      learn := a } := by
  unfold establishLine; dsimp only
  split
  · next he =>
    rw [line_orderSelector_eq, if_pos rfl]
    exact ⟨_, by simp [State.ordered]; rfl⟩
  · next he =>
    rw [line_orderSelector_eq, if_pos rfl]
    exact ⟨_, by simp [State.ordered]; rfl⟩

/-- The configuration a line leaves LOADING with reads its own and those of the amplifiers (R3). -/
theorem settledConfig_congr (n : LineNo) (hl : (t.line n).cfg = (s.line n).cfg) (ha : ∀ k, (t.amp k).cfg = (s.amp k).cfg) :
    t.settledConfig n = s.settledConfig n := by
  unfold State.settledConfig State.firstDuty
  simp only [hl, ha]

theorem find?_least {m : Nat} (p : Fin m → Bool) (l : List (Fin m)) (hl : l.Pairwise (· < ·)) {j : Fin m} (hj : j ∈ l)
    (hp : p j = true) (hn : ∀ i, i < j → p i = false) : l.find? p = some j := by
  induction l with
  | nil => cases hj
  | cons x xs ih =>
    obtain ⟨hx, sorted⟩ := List.pairwise_cons.mp hl
    by_cases h : x = j
    · rw [h, List.find?_cons_of_pos hp]
    · have hxs : j ∈ xs := (List.mem_cons.mp hj).resolve_left (Ne.symm h)
      rw [List.find?_cons_of_neg (by simp [hn x (hx j hxs)]), ih sorted hxs]

/-- The home and the enabled field a line leaves LOADING with (R3). -/
theorem settledConfig_spec (s : State) (n : LineNo) :
    (((s.amp (s.line n).cfg.home).cfg.role = .duty ∨ ∀ j, (s.amp j).cfg.role = .standby) →
        (s.settledConfig n).home = (s.line n).cfg.home) ∧
      (∀ j, (s.amp (s.line n).cfg.home).cfg.role = .standby → (s.amp j).cfg.role = .duty →
        (∀ i, i < j → (s.amp i).cfg.role = .standby) → (s.settledConfig n).home = j) ∧
      s.settledConfig n = { (s.line n).cfg with
        home := (s.settledConfig n).home
        enabled := (s.line n).cfg.enabled && decide (∃ j, (s.amp j).cfg.role = .duty) } := by
  unfold State.settledConfig; dsimp only
  by_cases hd : (s.amp (s.line n).cfg.home).cfg.role = .duty
  · rw [if_pos hd]
    have some : ∃ j, (s.amp j).cfg.role = .duty := ⟨_, hd⟩
    exact ⟨fun _ => rfl, fun j hs => by simp [hd] at hs, by simp [some]⟩
  · rw [if_neg hd]
    cases hf : s.firstDuty with
    | none =>
      have none : ∀ j, (s.amp j).cfg.role ≠ .duty := fun j => by
        simpa using List.find?_eq_none.mp hf j (mem_allAmps j)
      exact ⟨fun _ => rfl, fun j _ hj => absurd hj (none j), by simp [none]⟩
    | some d =>
      have duty : (s.amp d).cfg.role = .duty := by simpa using List.find?_some hf
      have some : ∃ j, (s.amp j).cfg.role = .duty := ⟨d, duty⟩
      refine ⟨fun h => ?_, fun j _ hj least => ?_, by simp [some]⟩
      · obtain h | h := h
        · exact absurd h hd
        · simp [h d] at duty
      · have first := find?_least (fun k => (s.amp k).cfg.role = .duty) allAmps (by decide) (mem_allAmps j) (by simp [hj])
          fun i hi => by simp [least i hi]
        rw [State.firstDuty, first] at hf
        exact (Option.some.inj hf).symm

/-- The lines of the end of LOADING, before the mode is left: each established on the amplifiers' configuration (R3). -/
theorem line_established (s : State) (n : LineNo) : ∃ a, (established s).line n =
    let c := s.settledConfig n
    { ({ s.line n with
          cfg := c, current := c.home, state := if c.enabled then .connected else (s.line n).state } : Line).sentTo
        (if c.enabled then .bus c.home else .off) with
      learn := a } := by
  obtain ⟨alone, cfg, -⟩ := foldl_establishAmp_eq allAmps (by decide) s
  obtain ⟨v, a, b, work, before, after⟩ := foldl_onlyLine_at establishLine_onlyLine allLines nodup_allLines
    (allAmps.foldl establishAmp s) (mem_allLines n)
  obtain ⟨c, own⟩ := line_establishLine_eq v n
  have line : v.line n = { s.line n with learn := a } := by rw [before, line_congr alone.lines]
  have settled : v.settledConfig n = s.settledConfig n :=
    settledConfig_congr n (by rw [line]) fun k => by rw [amp_congr work.amps, cfg]
  refine ⟨b, ?_⟩
  rw [established, after, own, settled, line]
  unfold Line.sentTo
  dsimp only
  split <;> split <;> rfl

theorem established_frame (s : State) : (established s).mc = s.mc ∧ (established s).co = s.co ∧
    (established s).store = s.store ∧ (established s).faults = s.faults ∧
    ∀ k, (s.amp k).state = .disabled → (established s).amp k = (s.amp k).established := by
  obtain ⟨alone, -, amps⟩ := foldl_establishAmp_eq allAmps (by decide) s
  have quiet := foldl_quiet establishLine establishLine_quiet allLines (allAmps.foldl establishAmp s)
  refine ⟨quiet.work.mc.trans alone.mc, quiet.work.co.trans alone.co, quiet.work.store.trans alone.store,
    quiet.faults.trans alone.faults, fun k hk => ?_⟩
  exact (amp_congr quiet.work.amps k).trans ((amps k).2 (mem_allAmps k) hk)

/-! ### Leaving LOADING (R149) -/

theorem setAmpState_mc (s : State) (k : AmpNo) (st : AmpState) : (setAmpState k st s).mc = s.mc :=
  (setAmpState_alone s k st).mc

theorem afterGrantMove_id_mc (s : State) (o : Operation) : (afterGrantMove id o s).mc = s.mc := by
  unfold afterGrantMove; split
  · exact (placeVerify_id_work _ _).mc
  · rfl

/-- A grant attempt that tells no channel leaves mode control as it stands. -/
theorem grantAttempt_id_mc (s : State) : (grantAttempt id s).mc = s.mc := by
  unfold grantAttempt; split
  · rfl
  · split
    · unfold grantEntry; split
      · split
        · unfold grantCover; dsimp only
          refine (afterGrantMove_id_mc _ _).trans ((moveLines_work _ _ _).mc.trans ((clear_same _ _ _).mc.trans ?_))
          exact setAmpState_mc _ _ _
        · rfl
      · unfold grantReturn; dsimp only
        exact (afterGrantMove_id_mc _ _).trans (moveLines_work _ _ _).mc
    · rfl

/-- The grant and the first search at the entry to SETTLING leave mode control as it stands (R150). -/
theorem enterSettling_mc (s : State) : (enterSettling false s).mc = { s.mc with mode := .settling, settleCount := 0 } := by
  have granted : (grantAttempt id (dueStarted (settlingBegun false s))).mc =
      { s.mc with mode := .settling, settleCount := 0 } :=
    (grantAttempt_id_mc _).trans (dueStarted_quiet _).work.mc
  rw [enterSettling_eq]
  generalize grantAttempt id (dueStarted (settlingBegun false s)) = u at granted
  have only := (arrival_stays (startRound u) (by simp [State.runs, startRound, granted]) (startRound_stays u)).exact
  rw [only]
  exact granted

/-- With no entry queued, the entry to SETTLING does no more than start the due probes and a first round (R150). -/
theorem enterSettling_unqueued (s : State) (hq : s.co.queue = []) : ∃ c,
    enterSettling false s = { dueStarted (settlingBegun false s) with chan := c } := by
  have quiet := dueStarted_quiet (settlingBegun false s)
  have mode : (dueStarted (settlingBegun false s)).mc.mode = .settling := by rw [quiet.work.mc]; rfl
  have queue : (dueStarted (settlingBegun false s)).co.queue = [] := by rw [quiet.work.co]; exact hq
  rw [enterSettling_eq]
  generalize dueStarted (settlingBegun false s) = u at mode queue
  rw [grantAttempt_empty u id queue]
  have only := (arrival_stays (startRound u) (by simp [State.runs, startRound, mode]) (startRound_stays u)).exact
  exact ⟨_, only⟩

/-- A line with no probe due keeps its record at the entry to SETTLING, but for its timer and its accumulator (R10). -/
theorem line_dueStarted (s : State) (n : LineNo) (h : (s.line n).probeDue = false) :
    ∃ a, (dueStarted s).line n = { s.line n with learn := a } := by
  unfold dueStarted; split
  · exact ⟨(s.line n).learn, rfl⟩
  · unfold startDueProbes
    clear * - h
    induction allLines generalizing s with
    | nil => exact ⟨(s.line n).learn, rfl⟩
    | cons m l ih =>
      rw [List.foldl_cons]
      have one : ∃ a, (if (s.line m).probeDue then startProbe id m s else s).line n = { s.line n with learn := a } := by
        split
        · next hm =>
          have other : n ≠ m := fun e => by rw [← e, h] at hm; cases hm
          obtain ⟨a, e⟩ := (probeStarted_onlyLine s m).others n other
          exact ⟨a, by rw [startProbe_eq, line_placeVerify_id, e]⟩
        · exact ⟨(s.line n).learn, rfl⟩
      obtain ⟨a, e⟩ := one
      obtain ⟨b, e'⟩ := ih _ (by rw [e]; exact h)
      exact ⟨b, by rw [e', e]⟩

/-- The mode after LOADING: SETTLING or STANDBY, by the autostart it ends with (R149). -/
def leaveLoading (s : State) : State := if s.mc.sys.autostart then enterSettling false s else enterStandby s

/-- What the mode control leaves at the end of LOADING (R149). -/
structure LoadingLeft (s t : State) : Prop where
  mc : t.mc = { s.mc with
    mode := if s.mc.sys.autostart then .settling else .standby
    settleCount := if s.mc.sys.autostart then 0 else s.mc.settleCount }
  store : t.store = s.store
  faults : s.co.queue = [] → t.faults = s.faults
  amps : s.co.queue = [] → t.amps = s.amps
  lines : s.co.queue = [] → ∀ n, (s.line n).probeDue = false → ∃ u a, t.line n = { s.line n with timer := u, learn := a }

theorem leaveLoading_left (s : State) : LoadingLeft s (leaveLoading s) := by
  unfold leaveLoading
  cases ha : s.mc.sys.autostart with
  | true =>
    rw [if_pos rfl]
    refine ⟨?_, (enterSettling_block _ false).store, fun hq => ?_, fun hq => ?_, fun hq n hn => ?_⟩
    · rw [enterSettling_mc, ha]; rfl
    all_goals
      obtain ⟨c, settled⟩ := enterSettling_unqueued s hq
      have quiet := dueStarted_quiet (settlingBegun false s)
      rw [settled]
    · exact quiet.faults
    · exact quiet.work.amps
    · have begun := line_settlingBegun false s n
      obtain ⟨b, e⟩ := line_dueStarted (settlingBegun false s) n (by rw [begun]; exact hn)
      exact ⟨_, b, e.trans (by rw [begun]; rfl)⟩
  | false =>
    rw [if_neg (by simp)]
    have same := signalAll_same ({ s with mc.mode := .standby }.mapLines fun l => { l with timer := l.timer.freeze })
    refine ⟨?_, (enterStandby_block _).store, fun _ => same.faults, fun _ => same.amps, fun _ n hn => ?_⟩
    · rw [ha]
      exact same.mc
    · refine ⟨(s.line n).timer.freeze, (s.line n).learn, (line_congr same.lines n).trans ?_⟩
      rw [line_mapLines]
      rfl

/-- What the end of LOADING leaves (R3, R72, R149), from `s`, with the raises sent, to `t`. -/
structure LoadingEnded (s t : State) : Prop where
  mc : t.mc = { s.mc with
    mode := if s.mc.sys.autostart then .settling else .standby
    settleCount := if s.mc.sys.autostart then 0 else s.mc.settleCount }
  store : t.store = s.store
  faults : s.co.queue = [] → t.faults = s.faults
  amps : s.co.queue = [] → ∀ k, (s.amp k).state = .disabled → t.amp k = (s.amp k).established
  lines : s.co.queue = [] → ∀ n, (s.line n).probeDue = false → ∃ u a, t.line n =
    let c := s.settledConfig n
    { ({ s.line n with
          cfg := c, current := c.home, state := if c.enabled then .connected else (s.line n).state } : Line).sentTo
        (if c.enabled then .bus c.home else .off) with
      timer := u, learn := a }

theorem endLoading_ended (s : State) : LoadingEnded s (endLoading s) := by
  obtain ⟨mc, co, store, faults, amps⟩ := established_frame s
  have line := line_established s
  have left := leaveLoading_left (established s)
  have leaves : endLoading s = leaveLoading (established s) := endLoading_eq s
  rw [leaves]
  generalize established s = e at *
  refine ⟨by rw [left.mc, mc], left.store.trans store, fun hq => (left.faults (by rw [co]; exact hq)).trans faults,
    fun hq k hk => (amp_congr (left.amps (by rw [co]; exact hq)) k).trans (amps k hk), fun hq n hn => ?_⟩
  obtain ⟨a, own⟩ := line n
  obtain ⟨u, b, after⟩ := left.lines (by rw [co]; exact hq) n (by
    rw [own]
    dsimp only
    rw [sentTo_eq]
    exact hn)
  exact ⟨u, b, by rw [after, own]⟩

/-! ### The raises of the load (R166) -/

theorem raiseAll_same (l : List (FaultKey × Option Snapshot)) (s : State) : SameButTable s (raiseAll l s) := by
  unfold raiseAll
  exact foldl_sameButTable _ (fun u x => raise_same u x.1 x.2) l s

theorem raiseAll_table (l : List (FaultKey × Option Snapshot)) (h : SameTable s t) :
    SameTable (raiseAll l s) (raiseAll l t) := by
  unfold raiseAll
  induction l generalizing s t with
  | nil => exact h
  | cons x l ih => exact ih (raise_table x.1 x.2 h)

theorem raiseAll_append (l m : List (FaultKey × Option Snapshot)) (s : State) :
    raiseAll (l ++ m) s = raiseAll m (raiseAll l s) := List.foldl_append

/-- A fold that raises for the elements that a test picks out raises for their list. -/
theorem foldl_raise {α : Type} (f : State → α → State) (p : α → Bool) (key : α → FaultKey × Option Snapshot) (l : List α)
    (s : State) (hf : ∀ u a, SameButTable s u → f u a = if p a then raise (key a).1 (key a).2 u else u) :
    l.foldl f s = raiseAll ((l.filter p).map key) s := by
  have step : ∀ (l : List α) (u : State), SameButTable s u → l.foldl f u = raiseAll ((l.filter p).map key) u := by
    intro l
    induction l with
    | nil => exact fun _ _ => rfl
    | cons a l ih =>
      intro u hu
      rw [List.foldl_cons, hf u a hu]
      cases hp : p a with
      | false => rw [List.filter_cons_of_neg (by simp [hp])]; exact ih u hu
      | true => rw [List.filter_cons_of_pos hp]; exact ih _ (hu.trans (raise_same u _ _))
  exact step l s (.refl s)

theorem endsEnabled_congr (h : SameButTable s t) (n : LineNo) : t.endsEnabled n = s.endsEnabled n := by
  simp only [State.endsEnabled, line_congr h.lines, amp_congr h.amps]

/-- The raises of the load are those of the list (R166). -/
theorem loadRaises_eq (s : State) :
    loadRaises s = raiseAll (s.loadFaults fun r => (s.recordStatus r).condition = .defaulted) s := by
  unfold loadRaises State.loadFaults
  rw [raiseAll_append]
  rw [foldl_raise raiseRejected (fun r => decide ((s.recordStatus r).condition = .defaulted) &&
    allLines.all fun n => subjectOf r ≠ .line n || s.endsEnabled n) (fun r => (.storeFault (subjectOf r), none))]
  · generalize hu : raiseAll _ s = u
    have same : SameButTable s u := by rw [← hu]; exact raiseAll_same _ s
    refine (foldl_raise raiseUncalibrated (fun n => s.endsEnabled n && (s.line n).cfg.zref.isNone)
      (fun n => (.uncalibrated n, none)) allLines u fun v n hv => ?_).trans ?_
    · unfold raiseUncalibrated
      rw [endsEnabled_congr (same.trans hv), line_congr (same.trans hv).lines]
      simp only [Bool.and_eq_true, and_comm]
    · rw [← hu]
      rfl
  · intro u r h
    have status : u.recordStatus r = s.recordStatus r := by simp only [State.recordStatus, h.store]
    have ends : ∀ m : LineNo, (allLines.all fun n => decide (StoreSubject.line m ≠ .line n) || s.endsEnabled n) =
        s.endsEnabled m := by
      intro m
      rw [Bool.eq_iff_iff, List.all_eq_true]
      refine ⟨fun h => by simpa using h m (mem_allLines m), fun h n _ => ?_⟩
      by_cases hn : m = n
      · simp [← hn, h]
      · simp [hn]
    unfold raiseRejected; dsimp only
    rw [status]
    cases hr : subjectOf r with
    | line m => simp only [ends, endsEnabled_congr h, Bool.and_eq_true, decide_eq_true_eq]
    | amp k => simp
    | system => simp

/-! ### One record (R165, R166) -/

/-- The working configuration after a record is judged: its fields, or the factory defaults (R165). -/
def State.configured (s : State) (k : RecordNo) (b : List Byte) (found : LoadCause) : State :=
  if found = .noCause then loadFields k b s else loadDefaults k s

/-- The store after a record is judged (R165, R166). -/
def Store.judges (w : Store) (k : RecordNo) (found : LoadCause) : Store :=
  { w with
    status := w.status.set k.val (if found = .noCause then ⟨.valid, .noCause⟩ else ⟨.defaulted, found⟩) k.isLt
    judged := w.judged + 1, readLeft := readMs }

theorem configured_store (s : State) (k : RecordNo) (b : List Byte) (found : LoadCause) :
    (s.configured k b found).store = s.store ∧
      ∀ w, ({ s with store := w } : State).configured k b found = { s.configured k b found with store := w } := by
  unfold State.configured loadFields loadDefaults
  split <;> cases subjectOf k <;> exact ⟨rfl, fun _ => rfl⟩

theorem settleRecord_next (s : State) (k : RecordNo) (b : List Byte) (found : LoadCause) :
    settleRecord k b found s =
      let v : State := { s.configured k b found with store := s.store.judges k found }
      if s.store.judged + 1 = 23 then endLoading (loadRaises v) else v := by
  have store := (configured_store s k b found).1
  have settled : recordSettled k b found s = { s.configured k b found with store := { s.store with
      status := s.store.status.set k.val (if found = .noCause then ⟨.valid, .noCause⟩ else ⟨.defaulted, found⟩) k.isLt } } := by
    unfold recordSettled State.configured at *
    split
    · next h => rw [if_pos h] at store; unfold setStatus; rw [store]
    · next h => rw [if_neg h] at store; unfold setStatus; rw [store]
  rw [settleRecord_eq, settled]
  rfl

theorem status_judges (w : Store) (k j : RecordNo) (found : LoadCause) : (w.judges k found).status.get j =
    if j = k then (if found = .noCause then ⟨.valid, .noCause⟩ else ⟨.defaulted, found⟩) else w.status.get j := by
  change (w.status.set k.val _ k.isLt)[j.val] = _
  rw [Vector.getElem_set]
  by_cases h : j = k
  · rw [if_pos h, if_pos (by rw [h])]
  · rw [if_neg h, if_neg fun e => h (Fin.ext e.symm)]
    rfl

/-- What a judged record leaves, as the statements write it. -/
theorem settleRecord_judges (s : State) (w : Store) (k : RecordNo) (b : List Byte) (found : LoadCause)
    (hs : w.status = s.store.status) (hj : w.judged = k.val) :
    s.loadJudges k b found (settleRecord k b found { s with store := w }) ∧
      (settleRecord k b found { s with store := w }).store.areas = w.areas := by
  have next := settleRecord_next { s with store := w } k b found
  rw [(configured_store s k b found).2 w] at next
  have status : ∀ j, (w.judges k found).status.get j =
      if j = k then (if found = .noCause then ⟨.valid, .noCause⟩ else ⟨.defaulted, found⟩) else s.recordStatus j := by
    intro j
    rw [status_judges, hs]
    rfl
  -- the store, whatever follows the judgement
  have judged : ∀ t : State, t.store = w.judges k found →
      t.recordStatus k = (if found = .noCause then ⟨.valid, .noCause⟩ else ⟨.defaulted, found⟩) ∧
        (∀ j, j ≠ k → t.recordStatus j = s.recordStatus j) ∧ t.store.judged = k.val + 1 ∧ t.store.areas = w.areas := by
    intro t ht
    refine ⟨?_, fun j hjk => ?_, by rw [ht]; exact congrArg (· + 1) hj, by rw [ht]; rfl⟩
    · rw [State.recordStatus, ht, status, if_pos rfl]
    · rw [State.recordStatus, ht, status, if_neg hjk]
  have limit := k.isLt
  by_cases last : k.val = 22
  · rw [next]
    dsimp only
    rw [if_pos (by rw [hj, last])]
    have raised := loadRaises_eq { s.configured k b found with store := w.judges k found }
    have same := loadRaises_same { s.configured k b found with store := w.judges k found }
    have ended := endLoading_ended (loadRaises { s.configured k b found with store := w.judges k found })
    generalize loadRaises { s.configured k b found with store := w.judges k found } = x at raised same ended
    generalize endLoading x = t at ended
    obtain ⟨own, others, count, areas⟩ := judged t (ended.store.trans same.store)
    refine ⟨⟨own, others, count, fun u hu => ⟨fun h => absurd last (Nat.ne_of_lt h), fun _ => ⟨?_, fun hq => ?_⟩⟩⟩, areas⟩
    · have mc : x.mc = u.mc := same.mc.trans (by rw [hu]; rfl)
      rw [ended.mc, mc]
    · have config : u = s.configured k b found := hu
      rw [← config] at raised same
      have queue : x.co.queue = [] := by rw [same.co]; exact hq
      refine ⟨?_, fun j hd => ?_, fun n hd hp => ?_⟩
      · have table : SameTable { u with store := w.judges k found } u := ⟨rfl, rfl, rfl⟩
        have status : ∀ r, t.recordStatus r = ({ u with store := w.judges k found } : State).recordStatus r := fun r => by
          simp only [State.recordStatus, ended.store, same.store]
        rw [ended.faults queue, raised, (raiseAll_table _ table).faults]
        simp only [status]
        rfl
      · rw [ended.amps queue j (by rw [amp_congr same.amps]; exact hd), amp_congr same.amps]
        rfl
      · have line : x.line n = u.line n := line_congr same.lines n
        obtain ⟨timer, a, after⟩ := ended.lines queue n (by rw [line]; exact hp)
        have amps : ∀ j, x.amp j = u.amp j := fun j => amp_congr same.amps j
        have settled : x.settledConfig n = u.settledConfig n :=
          settledConfig_congr n (by rw [line]) fun j => by rw [amps]
        obtain ⟨home, least, config⟩ := settledConfig_spec u n
        rw [line, settled] at after
        generalize u.settledConfig n = c at after home least config
        have cfg : (t.line n).cfg = c := by rw [after]; simp
        have state : (t.line n).state = if c.enabled then .connected else .disabled := by rw [after, ← hd]; simp
        refine ⟨fun h => by rw [cfg, home h], fun j hs hd' hl => by rw [cfg, least j hs hd' hl], by rw [cfg]; exact config,
          by rw [cfg, after]; simp, by rw [cfg]; exact state, fun hh => ?_⟩
        have ordered : ∀ l : Line, l.selector = .home →
            l.sentTo (if c.enabled then .bus c.home else .off) = { l with
              selector := if c.enabled then .bus c.home else .off, relayLeft := some 12, epoch := l.epoch + 1 } := by
          intro l hl
          unfold Line.sentTo
          rw [if_neg]
          rw [hl]
          split <;> simp
        rw [cfg, after]
        dsimp only
        rw [ordered]
        · exact ⟨rfl, rfl, rfl⟩
        · exact hh
  · rw [next]
    dsimp only
    rw [if_neg (by rw [hj]; omega)]
    obtain ⟨own, others, count, areas⟩ := judged { s.configured k b found with store := w.judges k found } rfl
    exact ⟨⟨own, others, count, fun u hu => ⟨fun _ => ⟨by rw [hu]; rfl, rfl⟩, fun h => absurd h last⟩⟩, areas⟩

theorem reading_of_judged {s : State} {k : RecordNo} (hm : s.mc.mode = .loading) (hj : s.store.judged = k.val) :
    s.reading = some k := by
  simp [State.reading, hm, recordNo?, hj]

end Sys2Proof.Machine

open Sys2Proof.Machine in
/-- Settles O45: each record writes the configuration and its status, and the last one the exact end of LOADING. -/
theorem loadJudgesRecordsAndEndsLoading : Obligations.LoadJudgesRecordsAndEndsLoading := by
  intro k b s hreset hm hj
  have reading := reading_of_judged hm hj
  refine ⟨?_, fun answers => ?_, fun cut rejected => ?_⟩
  · have taken : exec .unreadable s = .next (settleRecord k [] .unreadable s) := by
      change execUnreadable s = _
      unfold execUnreadable
      exact (takeEvent_taken s hreset _).trans (by rw [reading])
    have same : settleRecord k [] .unreadable s = settleRecord k b .unreadable s := rfl
    have judged := settleRecord_judges s s.store k b .unreadable rfl hj
    exact ⟨_, taken.trans (by rw [same]), judged⟩
  · have can : s.canAnswer k b = true := by
      unfold State.canAnswer
      obtain h | ⟨h, hl⟩ | ⟨h, hl, hc⟩ := answers
      · rw [h]; simp
      · rw [h]; simp [hl]
      · rw [h]; simp [hl, hc]
    have taken : exec (.recordRead b) s = .next (settleRecord k b (judgeRecord k b) (setArea k (.known b) s)) := by
      change execRecordRead b s = _
      unfold execRecordRead
      exact (takeEvent_taken s hreset _).trans (by simp only [reading, can, ↓reduceIte])
    have judged := settleRecord_judges s { s.store with areas := s.store.areas.set k.val (.known b) k.isLt } k b
      (judgeRecord k b) rfl hj
    exact ⟨_, taken, judged⟩
  · have cannot : s.canAnswer k b = false := by
      unfold State.canAnswer
      rw [cut]
      simp [rejected]
    change execRecordRead b s = _
    unfold execRecordRead
    exact (takeEvent_taken s hreset _).trans (by simp only [reading, cannot, Bool.false_eq_true, ↓reduceIte])
end

section
/-! PROOFS. The arbiter and the rounds (O46): the search of a channel-free event class by class, and the end of a round. -/

namespace Sys2Proof.Machine

variable (s : State)

/-! ### The order of the search (R33) -/

theorem firstGrant_grants {f : State → State} {fs : List (State → State)} (h : (f s).chan.inFlight.isSome) :
    firstGrant (f :: fs) s = f s := by
  unfold firstGrant
  exact if_pos h

theorem firstGrant_passes {f : State → State} {fs : List (State → State)} (h : (f s).chan.inFlight = none) :
    firstGrant (f :: fs) s = firstGrant fs (f s) := by
  rw [firstGrant]
  exact if_neg (by simp [h])

theorem searchRunning_once (h : (searchOnce s).chan.inFlight.isSome ∨
    (searchOnce s).chan.roundNumber = s.chan.roundNumber) : searchRunning s = searchOnce s := by
  unfold searchRunning; dsimp only
  refine if_neg fun ⟨free, ended⟩ => ?_
  obtain h | h := h
  · simp [Option.isNone_iff_eq_none.mp free] at h
  · exact ended h

/-- The queues and the job after the search of the verify queue has granted nothing (R34). -/
def State.unverified (s : State) : State :=
  { s with chan := { s.chan with verify := s.chan.verify.filter s.keptInVerify } }

/-- With no verify entry to grant, the classes are served in the order of the rotation (R33). -/
theorem searchOnce_unverified (hf : s.chan.inFlight = none) (hv : ∀ y ∈ s.chan.verify, s.grantsVerify y = false) :
    searchOnce s = firstGrant (s.chan.rotation.order.map tryClass) s.unverified := by
  have tried : tryVerify s = s.unverified := tryVerify_none s hv
  unfold searchOnce
  refine (firstGrant_passes s ?_).trans (by rw [tried])
  rw [tried]
  exact hf

/-- An arrival while supervision runs, where the classes make a grant or end no round (R32, R33). -/
theorem arrival_classes (hf : s.chan.inFlight = none) (hr : s.runs = true) (hv : ∀ y ∈ s.chan.verify, s.grantsVerify y = false)
    {t : State} (ht : firstGrant (s.chan.rotation.order.map tryClass) s.unverified = t)
    (h : t.chan.inFlight.isSome ∨ t.chan.roundNumber = s.chan.roundNumber) : arrival s = t := by
  have once := searchOnce_unverified s hf hv
  rw [arrival_free s hf, channelFree_runs s hr, inFlight_none_self s hf, searchRunning_once s (by rw [once, ht]; exact h), once, ht]

/-! ### The waiting scan (R29) -/

/-- A scan that waits leaves the state as it stands. -/
theorem tryScan_waits (h : s.scanWaits = true) : tryScan s = s := by
  cases hr : s.chan.round with
  | none => exact tryScan_none s hr
  | some r =>
    simp only [State.scanWaits, hr, Option.all_some, Bool.or_eq_true, List.isEmpty_iff] at h
    obtain h | h := h
    · exact tryScan_empty s hr h
    · obtain ⟨x, hx, hk⟩ := (Option.any_eq_true _ _).mp h
      obtain ⟨kept, waits⟩ : s.slotKept x = true ∧ s.slotAtRest x = false := by simpa using hk
      obtain ⟨hi, rfl⟩ := List.getElem?_eq_some_iff.mp hx
      have slots : r.slots.drop r.pos = [] ++ r.slots[r.pos] :: r.slots.drop (r.pos + 1) :=
        List.drop_eq_getElem_cons hi
      rw [tryScan_slot s hr slots (fun _ h => by cases h) kept, takeSlot_waits s r _ waits]
      simp only [List.length_nil, Nat.add_zero]
      rw [← hr]

/-! ### The classes with nothing to grant -/

/-- The confirm queue after its search has granted nothing (R34). -/
def State.unconfirmed (s : State) : State :=
  { s with chan := { s.chan with confirm := s.chan.confirm.filter s.keptInConfirm } }

section Order
variable (hf : s.chan.inFlight = none)
include hf

theorem firstGrant_confirm_none (fs : List (State → State)) (h : ∀ y ∈ s.chan.confirm, s.grantsConfirm y = false) :
    firstGrant (tryConfirm :: fs) s = firstGrant fs s.unconfirmed := by
  have tried : tryConfirm s = s.unconfirmed := tryConfirm_none s h
  rw [firstGrant_passes s (by rw [tried]; exact hf), tried]

theorem firstGrant_learn_none (fs : List (State → State)) (h : s.grantsLearn = false) :
    firstGrant (tryLearn :: fs) s = firstGrant fs s := by
  rw [firstGrant_passes s (by rw [tryLearn_none s h]; exact hf), tryLearn_none s h]

theorem firstGrant_scan_waits (fs : List (State → State)) (h : s.scanWaits = true) :
    firstGrant (tryScan :: fs) s = firstGrant fs s := by
  rw [firstGrant_passes s (by rw [tryScan_waits s h]; exact hf), tryScan_waits s h]

end Order

/-- An arrival that grants from the confirm queue (R33, R34). -/
theorem arrival_confirm (hf : s.chan.inFlight = none) (hr : s.runs = true)
    (hv : ∀ y ∈ s.chan.verify, s.grantsVerify y = false) {pre rest : List Subject} {x : Subject}
    (h : s.chan.confirm = pre ++ x :: rest) (hp : ∀ y ∈ pre, s.grantsConfirm y = false) (hx : s.grantsConfirm x = true)
    (turn : s.chan.rotation = .scan ∨ (s.chan.rotation = .learn ∧ s.scanWaits = true) ∨
      (s.chan.rotation = .confirm ∧ s.grantsLearn = false ∧ s.scanWaits = true)) :
    arrival s = { s with chan := { s.chan with
      verify := s.chan.verify.filter s.keptInVerify, confirm := pre.filter s.keptInConfirm ++ rest, rotation := .confirm
      inFlight := some (s.granted x.target .confirm none) } } := by
  have granted : tryConfirm s.unverified = { s with chan := { s.chan with
      verify := s.chan.verify.filter s.keptInVerify, confirm := pre.filter s.keptInConfirm ++ rest, rotation := .confirm
      inFlight := some (s.granted x.target .confirm none) } } :=
    tryConfirm_some s.unverified h hp hx
  have first : ∀ fs, firstGrant (tryConfirm :: fs) s.unverified = tryConfirm s.unverified := fun fs =>
    firstGrant_grants _ (by rw [granted]; rfl)
  refine arrival_classes s hf hr hv ?_ (.inl rfl)
  rw [← granted]
  obtain e | ⟨e, waits⟩ | ⟨e, quiet, waits⟩ := turn
  · rw [e]
    exact first _
  · rw [e]
    exact (firstGrant_scan_waits s.unverified hf _ waits).trans (first _)
  · rw [e]
    exact (firstGrant_learn_none s.unverified hf _ quiet).trans <|
      (firstGrant_scan_waits s.unverified hf _ waits).trans (first _)

/-- An arrival that grants the next learn sample (R27, R33). -/
theorem arrival_learn (hf : s.chan.inFlight = none) (hr : s.runs = true)
    (hv : ∀ y ∈ s.chan.verify, s.grantsVerify y = false) {j : LearnJob} (hj : s.chan.job = some j) (hg : s.grantsLearn = true)
    (turn : s.chan.rotation = .confirm ∨ ((s.chan.rotation = .scan ∨ s.scanWaits = true) ∧
      ∀ y ∈ s.chan.confirm, s.grantsConfirm y = false)) :
    arrival s = { s with chan := { s.chan with
      verify := s.chan.verify.filter s.keptInVerify
      confirm := if s.chan.rotation = .confirm then s.chan.confirm else s.chan.confirm.filter s.keptInConfirm
      job := some { j with granted := j.granted + 1 }, rotation := .learn
      inFlight := some (s.granted (.line j.line) .learn none) } } := by
  have first : ∀ (u : State) (fs : List (State → State)), u.chan.job = some j → u.grantsLearn = true →
      firstGrant (tryLearn :: fs) u = { u with chan := { u.chan with
        job := some { j with granted := j.granted + 1 }, rotation := .learn
        inFlight := some (u.granted (.line j.line) .learn none) } } := fun u fs hj hg => by
    have granted := tryLearn_some u hj hg
    rw [firstGrant_grants u (by rw [granted]; rfl), granted]
  refine arrival_classes s hf hr hv ?_ (.inl rfl)
  by_cases hc : s.chan.rotation = .confirm
  · rw [hc]
    exact first s.unverified _ hj hg
  · rw [if_neg hc]
    obtain e | ⟨e, quiet⟩ := turn
    · exact absurd e hc
    · cases hrot : s.chan.rotation with
      | confirm => exact absurd hrot hc
      | scan =>
        exact (firstGrant_confirm_none s.unverified hf _ quiet).trans (first s.unverified.unconfirmed _ hj hg)
      | learn =>
        have waits : s.scanWaits = true := e.resolve_left (by rw [hrot]; decide)
        exact (firstGrant_scan_waits s.unverified hf _ waits).trans <|
          (firstGrant_confirm_none s.unverified hf _ quiet).trans (first s.unverified.unconfirmed _ hj hg)

/-- An arrival that reaches an eligible slot at rest (R29, R33). -/
theorem arrival_scan (hf : s.chan.inFlight = none) (hr : s.runs = true)
    (hv : ∀ y ∈ s.chan.verify, s.grantsVerify y = false) {r : Round} (hround : s.chan.round = some r)
    {pre rest : List Target} {x : Target} (h : r.slots.drop r.pos = pre ++ x :: rest)
    (hp : ∀ y ∈ pre, s.slotKept y = false) (hx : s.slotKept x = true)
    (turn : s.chan.rotation = .learn ∨ (s.chan.rotation = .confirm ∧ s.grantsLearn = false) ∨
      (s.chan.rotation = .scan ∧ s.grantsLearn = false ∧ ∀ y ∈ s.chan.confirm, s.grantsConfirm y = false))
    (ha : s.slotAtRest x = true) :
    arrival s = { s with chan := { s.chan with
      verify := s.chan.verify.filter s.keptInVerify
      confirm := if s.chan.rotation = .scan then s.chan.confirm.filter s.keptInConfirm else s.chan.confirm
      rotation := .scan, round := some { r with pos := r.pos + pre.length + 1 }
      inFlight := some (s.granted x .scan (some (r.pos + pre.length))) } } := by
  have first : ∀ (u : State) (fs : List (State → State)), u.chan.round = some r → (∀ y ∈ pre, u.slotKept y = false) →
      u.slotKept x = true → u.slotAtRest x = true →
      firstGrant (tryScan :: fs) u = { u with chan := { u.chan with
        round := some { r with pos := r.pos + pre.length + 1 }, rotation := .scan
        inFlight := some (u.granted x .scan (some (r.pos + pre.length))) } } := fun u fs hr hp hx ha => by
    have granted := (tryScan_slot u hr h hp hx).trans (takeSlot_rest u r _ ha)
    rw [firstGrant_grants u (by rw [granted]; rfl), granted]
  refine arrival_classes s hf hr hv ?_ (.inl rfl)
  obtain e | ⟨e, quiet⟩ | ⟨e, quiet, none⟩ := turn
  · rw [e]
    exact first s.unverified _ hround hp hx ha
  · rw [e]
    exact (firstGrant_learn_none s.unverified hf _ quiet).trans (first s.unverified _ hround hp hx ha)
  · rw [e]
    exact (firstGrant_confirm_none s.unverified hf _ none).trans <|
      (firstGrant_learn_none s.unverified.unconfirmed hf _ quiet).trans
        (first s.unverified.unconfirmed _ hround hp hx ha)

/-- An arrival that reaches an eligible slot whose line is moving, with no other work (R29). -/
theorem arrival_scan_waits (hf : s.chan.inFlight = none) (hr : s.runs = true)
    (hv : ∀ y ∈ s.chan.verify, s.grantsVerify y = false) {r : Round} (hround : s.chan.round = some r)
    {pre rest : List Target} {x : Target} (h : r.slots.drop r.pos = pre ++ x :: rest)
    (hp : ∀ y ∈ pre, s.slotKept y = false) (hx : s.slotKept x = true) (ha : s.slotAtRest x = false)
    (hc : s.chan.confirm = []) (hj : s.chan.job = none) :
    arrival s = { s with chan := { s.chan with
      verify := s.chan.verify.filter s.keptInVerify, round := some { r with pos := r.pos + pre.length } } } := by
  have quiet : s.grantsLearn = false := by simp [State.grantsLearn, hj]
  have none : ∀ y ∈ s.chan.confirm, s.grantsConfirm y = false := by simp [hc]
  have empty : ∀ u : State, u.chan.confirm = [] → u.unconfirmed = u := fun u hu => by
    unfold State.unconfirmed
    rw [hu, List.filter_nil, ← hu]
  have waits := (tryScan_slot s.unverified hround h hp hx).trans (takeSlot_waits s.unverified r _ ha)
  have scanned : ∀ fs, firstGrant (tryScan :: fs) s.unverified = firstGrant fs (tryScan s.unverified) := fun fs =>
    firstGrant_passes _ (by rw [waits]; exact hf)
  refine arrival_classes s hf hr hv ?_ (.inr rfl)
  generalize htried : tryScan s.unverified = v at waits scanned
  have free : v.chan.inFlight = .none := by rw [waits]; exact hf
  have idle : v.grantsLearn = false := by rw [waits]; exact quiet
  have nobody : v.chan.confirm = [] := by rw [waits]; exact hc
  have confirmless : ∀ fs, firstGrant (tryConfirm :: fs) v = firstGrant fs v := fun fs => by
    rw [firstGrant_confirm_none v free fs (by simp [nobody]), empty v nobody]
  have learnless : ∀ fs, firstGrant (tryLearn :: fs) v = firstGrant fs v := fun fs => firstGrant_learn_none v free fs idle
  refine Eq.trans ?_ waits
  cases s.chan.rotation with
  | learn => exact (scanned _).trans ((confirmless _).trans (learnless _))
  | confirm => exact (firstGrant_learn_none s.unverified hf _ quiet).trans ((scanned _).trans (confirmless _))
  | scan =>
    refine (firstGrant_confirm_none s.unverified hf _ none).trans ?_
    rw [empty s.unverified hc]
    exact (firstGrant_learn_none s.unverified hf _ quiet).trans (scanned _)

/-- An arrival with nothing to grant (R29, R33, R34). -/
theorem arrival_nothing (hf : s.chan.inFlight = none) (hr : s.runs = true)
    (hv : ∀ y ∈ s.chan.verify, s.grantsVerify y = false) (waits : s.scanWaits = true) (quiet : s.grantsLearn = false)
    (none : ∀ y ∈ s.chan.confirm, s.grantsConfirm y = false) :
    arrival s = { s with chan := { s.chan with
      verify := s.chan.verify.filter s.keptInVerify, confirm := s.chan.confirm.filter s.keptInConfirm } } := by
  have done : firstGrant [] s.unverified.unconfirmed = s.unverified.unconfirmed := rfl
  refine (arrival_classes s hf hr hv (t := s.unverified.unconfirmed) ?_ (.inr rfl)).trans rfl
  cases s.chan.rotation with
  | scan =>
    exact (firstGrant_confirm_none s.unverified hf _ none).trans <|
      (firstGrant_learn_none s.unverified.unconfirmed hf _ quiet).trans <|
        (firstGrant_scan_waits s.unverified.unconfirmed hf _ waits).trans done
  | learn =>
    exact (firstGrant_scan_waits s.unverified hf _ waits).trans <|
      (firstGrant_confirm_none s.unverified hf _ none).trans <|
        (firstGrant_learn_none s.unverified.unconfirmed hf _ quiet).trans done
  | confirm =>
    exact (firstGrant_learn_none s.unverified hf _ quiet).trans <|
      (firstGrant_scan_waits s.unverified hf _ waits).trans <|
        (firstGrant_confirm_none s.unverified hf _ none).trans done

/-! ### The verify class first, and STOPPING (R33, R35) -/

/-- An arrival that grants from the verify queue, in SETTLING, ACTIVE and STOPPING alike (R33, R34, R35). -/
theorem arrival_verify (hf : s.chan.inFlight = none) (hr : s.runs = true ∨ s.mc.mode = .stopping)
    {pre rest : List Subject} {x : Subject} (h : s.chan.verify = pre ++ x :: rest)
    (hp : ∀ y ∈ pre, s.grantsVerify y = false) (hx : s.grantsVerify x = true) :
    arrival s = { s with chan := { s.chan with
      verify := pre.filter s.keptInVerify ++ rest, inFlight := some (s.granted x.target .verify none) } } := by
  have granted := tryVerify_some s h hp hx
  have inFlight : (tryVerify s).chan.inFlight.isSome := by rw [granted]; rfl
  rw [← granted, arrival_free s hf]
  obtain hr | hm := hr
  · have once : searchOnce s = tryVerify s := firstGrant_grants s inFlight
    rw [channelFree_runs s hr, inFlight_none_self s hf, searchRunning_once s (.inl (by rw [once]; exact inFlight)), once]
  · unfold channelFree
    rw [inFlight_none_self s hf]
    dsimp only
    rw [hm]
    refine if_neg fun free => ?_
    simp [Option.isNone_iff_eq_none.mp free] at inFlight

/-- An arrival in STOPPING with nothing to grant: mode control's check (R35, R154). -/
theorem arrival_stopping (hf : s.chan.inFlight = none) (hm : s.mc.mode = .stopping)
    (hv : ∀ y ∈ s.chan.verify, s.grantsVerify y = false) : arrival s = checkStopped s.unverified := by
  have tried : tryVerify s = s.unverified := tryVerify_none s hv
  rw [arrival_free s hf]
  unfold channelFree
  rw [inFlight_none_self s hf]
  dsimp only
  rw [hm, tried]
  exact if_pos (Option.isNone_iff_eq_none.mpr hf)

theorem checkStopped_operated (h : s.co.op.isSome) : checkStopped s = s := by
  unfold checkStopped
  refine if_neg fun g => ?_
  simp [Option.isNone_iff_eq_none.mp g.2.2] at h

theorem checkStopped_done (hm : s.mc.mode = .stopping) (hf : s.chan.inFlight = none) (ho : s.co.op = none) :
    checkStopped s = enterStandby s :=
  if_pos ⟨hm, Option.isNone_iff_eq_none.mpr hf, Option.isNone_iff_eq_none.mpr ho⟩

/-- The entry to STANDBY: every timer frozen, every port with an eligible class signalled (R9, R140). -/
theorem enterStandby_exact : enterStandby s = { s with
      mc := { s.mc with mode := .standby }, lines := (enterStandby s).lines, ports := (enterStandby s).ports } ∧
    (∀ n, (enterStandby s).line n = { s.line n with timer := (s.line n).timer.freeze }) ∧
    ∀ q, (enterStandby s).port q = { s.port q with latch := (s.port q).latch || s.anyEligible q } := by
  have exact := signalAll_exact ({ s with mc.mode := .standby }.mapLines fun l => { l with timer := l.timer.freeze })
  have lines := (signalAll_same ({ s with mc.mode := .standby }.mapLines fun l => { l with timer := l.timer.freeze })).lines
  refine ⟨?_, fun n => ?_, fun q => port_signalAll _ q⟩
  · unfold enterStandby
    generalize signalAll ({ s with mc.mode := .standby }.mapLines fun l => { l with timer := l.timer.freeze }) = t at exact lines
    generalize t.ports = x at exact
    rw [exact]
    rfl
  · exact (line_congr lines n).trans (line_mapLines _ _ n)

theorem arrival_still (h : s.chan.inFlight.isSome ∨ s.mc.mode = .loading ∨ s.mc.mode = .standby) : arrival s = s := by
  cases hf : s.chan.inFlight with
  | some m => exact arrival_inFlight s (by rw [hf]; rfl)
  | none =>
    rw [arrival_free s hf]
    unfold channelFree
    rw [inFlight_none_self s hf]
    dsimp only
    obtain h | h | h := h
    · simp [hf] at h
    · rw [h]
    · rw [h]

end Sys2Proof.Machine
end

section
/-! PROOFS. The ends of rounds (O46): what mode control does with one, the held raises, and the completion of the last slot. -/

namespace Sys2Proof.Machine

variable {s t u : State}

/-! ### What a result leaves of the round (R36) -/

/-- What the blocks and the line supervisor keep, a result that is taken keeps (R36, R37). -/
theorem resultTaken_closed {R : State → State → Prop} (hC : Closed R) (hL : ∀ n, LineClosed n R)
    (hA : ∀ s k ac prot, R s (s.setAmp k ((s.amp k).judged ac prot))) (m : Measurement) (r : Reading) (s : State) :
    R s (resultTaken m r s) := by
  have stale : R s (placeStale m s) := by
    have keeps := hC.refl s
    unfold placeStale
    split
    · split
      · exact (hL 0).placeConfirm s _
      · exact keeps
    · split
      · exact (hL 0).placeConfirm s _
      · exact keeps
    · exact hC.placeAmpIfCounting s _
    · exact hC.placeAmpIfCounting s _
    · split
      · exact (hL 0).placeVerify s _
      · exact keeps
    · split
      · exact (hL 0).placeVerify s _
      · exact keeps
    · exact keeps
  unfold resultTaken; split
  · exact stale
  · unfold deliver; split
    · unfold deliverLine; split
      · exact (hL _).probeReading s _ _ _
      · split
        · exact hC.refl s
        · exact (hL _).learnSample s _ _ _
      · exact (hL _).classificationReading s _ _ _
      · exact (hL _).classificationReading s _ _ _
    · exact (hL _).earthReading s _ _
    · split
      · exact hC.takeVerify s hC.refl _ _ _ _
      · rw [ampReading_cases]; split
        · exact hC.refl s
        · refine hC.trans ?_ (hC.placeAmpIfCounting _ _)
          split
          · exact hC.refl s
          · exact hC.trans (hA s _ _ _) (hC.ampStepped _ hC.refl _ _ _)
    · exact hC.refl s

/-- The round, its number, whether a measurement is in flight and whether supervision runs stand. -/
structure RoundKept (s t : State) : Prop where
  round : t.chan.round = s.chan.round
  number : t.chan.roundNumber = s.chan.roundNumber
  inFlight : t.chan.inFlight.isSome = s.chan.inFlight.isSome
  runs : t.runs = s.runs

theorem RoundKept.of_chan (hc : t.chan = s.chan) (hr : t.runs = s.runs) : RoundKept s t :=
  ⟨by rw [hc], by rw [hc], by rw [hc], hr⟩

theorem RoundKept.trans (h : RoundKept s t) (g : RoundKept t u) : RoundKept s u :=
  ⟨g.round.trans h.round, g.number.trans h.number, g.inFlight.trans h.inFlight, g.runs.trans h.runs⟩

theorem ChanKept.roundKept (h : ChanKept s t) (hr : t.runs = s.runs) : RoundKept s t :=
  ⟨h.round, h.number, h.inFlight, hr⟩

theorem roundKept_closed : Closed RoundKept where
  refl _ := .of_chan rfl rfl
  trans := .trans
  table h := .of_chan h.chan h.lineWork.runs
  verify _ _ _ := ⟨rfl, rfl, rfl, rfl⟩
  withdraw _ _ := ⟨rfl, rfl, rfl, rfl⟩
  place _ _ := by rw [placeConfirm_eq]; exact ⟨rfl, rfl, rfl, rfl⟩
  co _ _ := .of_chan rfl rfl
  move _ _ := .of_chan rfl rfl
  amp _ _ _ _ := .of_chan rfl rfl
  verifyFails _ _ _ _ := .of_chan rfl rfl
  moveLine s y n := (chanKept_closed.moveLine s y n).roundKept (rested_closed.moveLine s y n).runs
  settles _ _ _ := .of_chan rfl rfl
  active s h := .of_chan rfl (rested_closed.active s h).runs
  freeze s h hf ho := .of_chan rfl (rested_closed.freeze s h hf ho).runs

theorem roundKept_line (n : LineNo) : LineClosed n RoundKept where
  refl _ := .of_chan rfl rfl
  trans := .trans
  table h := .of_chan h.chan h.lineWork.runs
  line _ _ := .of_chan rfl rfl
  queues _ _ _ := ⟨rfl, rfl, rfl, rfl⟩
  order s pos := (orderSelector_chanKept s n pos).roundKept (orderSelector_work s n pos).runs
  ended s o := (endLearn_chanKept s o).roundKept (endLearn_work s o).runs

theorem resultTaken_roundKept (m : Measurement) (r : Reading) (s : State) :
    RoundKept s (reportMove id (resultTaken m r s)) :=
  (resultTaken_closed roundKept_closed roundKept_line (fun _ _ _ _ => .of_chan rfl rfl) m r s).trans
    (roundKept_closed.reportMove _ roundKept_closed.refl)

/-! ### The end of a round while supervision runs (R30) -/

theorem endRound_keeps_runs (h : s.runs = true) : (endRound s).runs = true := (rested_search.endRound s).runs.trans h

theorem endRound_round (h : s.runs = true) : (endRound s).chan.round =
    some ⟨slotList (signalAll (countRound s.roundOver)), 0, emptyRoundMs⟩ := by
  rw [endRound_runs s h]
  rfl

/-- The slots of a round that starts now, as the statements write them (R28). -/
theorem slotList_eq (s : State) : slotList s = s.slotsOf s.chan.roundNumber := by
  unfold slotList State.slotsOf
  congr 1
  · have amps : ∀ l : List AmpNo, l.flatMap (ampSlots s) = (l.filter fun k => (s.amp k).state ≠ .disabled).map .amp := by
      intro l
      induction l with
      | nil => rfl
      | cons k l ih =>
        rw [List.flatMap_cons, ih, ampSlots]
        by_cases h : (s.amp k).state = .disabled <;> simp [h]
    exact amps allAmps
  · congr 1
    funext n
    unfold lineSlots State.earthRound
    simp

/-- A search after the end of a round ends no other. -/
theorem endRound_search (h : s.runs = true) : (channelFree (endRound s)).chan.roundNumber = s.chan.roundNumber + 1 ∧
    (channelFree (endRound s)).chan.round.isSome := by
  have only := channelFree_stays (endRound s) (endRound_keeps_runs h) (endRound_stays s)
  refine ⟨only.number.trans (endRound_number s), only.round.trans ?_⟩
  rw [endRound_round h]
  rfl

/-- The completion of the last slot of a round ends it, whatever its result (R30). -/
theorem completeMeasurement_lastSlot {m : Measurement} (r : Reading) (hr : s.runs = true) (hm : m.cls = .scan)
    {round : Round} (hround : s.chan.round = some round) (hs : round.slots ≠ [])
    (last : m.slot = some (round.slots.length - 1)) :
    (completeMeasurement m r s).chan.roundNumber = s.chan.roundNumber + 1 ∧
      (completeMeasurement m r s).chan.round.isSome := by
  have kept := resultTaken_roundKept m r s
  rw [completeMeasurement_eq]
  generalize reportMove id (resultTaken m r s) = u at kept
  have ends : u.completesRound m = true := by
    have nonempty : round.slots.isEmpty = false := by simpa [List.isEmpty_eq_false_iff] using hs
    simp [State.completesRound, hm, kept.round, hround, last, nonempty]
  have completed : slotCompleted m u = endRound u := if_pos ends
  rw [completed, ← kept.number]
  exact endRound_search (kept.runs.trans hr)

/-- A search that finds no eligible slot left ends the round, and no other (R29, R30). -/
theorem arrival_skips_last (hf : s.chan.inFlight = none) (hr : s.runs = true)
    (hv : ∀ y ∈ s.chan.verify, s.grantsVerify y = false)
    (turn : s.chan.rotation = .learn ∨ (s.chan.rotation = .confirm ∧ s.grantsLearn = false))
    {round : Round} (hround : s.chan.round = some round) (hs : round.slots ≠ [])
    (hp : ∀ y ∈ round.slots.drop round.pos, s.slotKept y = false) :
    (arrival s).chan.roundNumber = s.chan.roundNumber + 1 ∧ (arrival s).chan.round.isSome := by
  have scanned : tryScan s.unverified = tryFirstSlot (endRound s.unverified) := tryScan_ends s.unverified hround hs hp
  have runs : (endRound s.unverified).runs = true := endRound_keeps_runs (s := s.unverified) hr
  have stays : Stays (endRound s.unverified) (tryScan s.unverified) := by
    rw [scanned]
    exact tryFirstSlot_stays ⟨.refl _, fun _ => endRound_stays _⟩
  -- the classes after the scan, and a second search
  have keeps := stays_searchKeeps (endRound s.unverified)
  have rest : ∀ fs : List RotClass, Stays (endRound s.unverified) (firstGrant (tryScan :: fs.map tryClass) s.unverified) := by
    intro fs
    unfold firstGrant; dsimp only
    split
    · exact stays
    · next hn =>
      refine firstGrant_keeps_prop _ (fun f hf => ?_) (by simpa using hn) stays
      obtain ⟨c, -, rfl⟩ := List.mem_map.mp hf
      cases c with
      | confirm => exact keeps.confirm
      | learn => exact keeps.learn
      | scan => exact keeps.scan
  have once : Stays (endRound s.unverified) (searchOnce s) := by
    rw [searchOnce_unverified s hf hv]
    obtain e | ⟨e, quiet⟩ := turn
    · rw [e]
      exact rest [.confirm, .learn]
    · rw [e]
      have skipped := firstGrant_learn_none s.unverified hf ([RotClass.scan, .confirm].map tryClass) quiet
      exact Eq.mpr (congrArg (Stays (endRound s.unverified)) skipped) (rest [.confirm])
  have searched : Stays (endRound s.unverified) (searchRunning s) := by
    unfold searchRunning; dsimp only; split
    · next hn => exact keeps.searchOnce (by simpa using hn.1) once
    · exact once
  have only := searched.1
  rw [arrival_free s hf, channelFree_runs s hr, inFlight_none_self s hf]
  refine ⟨only.number.trans (endRound_number s.unverified), only.round.trans ?_⟩
  rw [endRound_round (s := s.unverified) hr]
  rfl

/-! ### The raises held in SETTLING (R51, R67, R151) -/

/-- A fold that raises lists raises their concatenation. -/
theorem foldl_raiseAll {α : Type} (f : State → α → State) (g : α → List (FaultKey × Option Snapshot)) (l : List α)
    (s : State) (hf : ∀ u a, SameButTable s u → f u a = raiseAll (g a) u) : l.foldl f s = raiseAll (l.flatMap g) s := by
  have step : ∀ (l : List α) (u : State), SameButTable s u → l.foldl f u = raiseAll (l.flatMap g) u := by
    intro l
    induction l with
    | nil => exact fun _ _ => rfl
    | cons a l ih =>
      intro u hu
      rw [List.foldl_cons, hf u a hu, List.flatMap_cons, raiseAll_append]
      exact ih _ (hu.trans (raiseAll_same _ u))
  exact step l s (.refl s)

theorem raiseAll_exact (l : List (FaultKey × Option Snapshot)) (s : State) :
    raiseAll l s = { s with faults := (raiseAll l s).faults, ports := (raiseAll l s).ports } := by
  refine (raiseAll_same l s).exact ?_
  unfold raiseAll
  induction l generalizing s with
  | nil => rfl
  | cons x l ih => exact (ih _).trans (freeUses_raise x.1 x.2 s)

/-- The held raises of a line's class and of BLIND (R51). -/
def State.heldOfLine (s : State) (n : LineNo) : List (FaultKey × Option Snapshot) :=
  let l := s.line n
  if l.state = .disabled then []
  else
    (if l.confirmed = .short then [] else (classFaults n l.confirmed).map fun k => (k, some (.impedance l.zf l.deviation)))
      ++ if s.mc.sys.blindLimit ≤ l.masked then [(.blind n, none)] else []

/-- The held raise of a line's leak (R67). -/
def State.heldLeak (s : State) (n : LineNo) : List (FaultKey × Option Snapshot) :=
  let l := s.line n
  if l.state ≠ .disabled ∧ l.earth = .leak then
    [(.earthLeak n, l.lastLc.map fun lc => .earth lc (if lc.val = 0 then 9999 else min 9999 (200000 / lc.val)))]
  else []

theorem heldFaults_eq (s : State) :
    s.heldFaults = allLines.flatMap s.heldOfLine ++ allLines.flatMap s.heldLeak := rfl

theorem heldRaises_eq (s : State) (hm : s.mc.mode = .active) (n : LineNo) : heldRaises s n = raiseAll (s.heldOfLine n) s := by
  have blind : ∀ u : State, SameButTable s u → raiseBlind n u =
      raiseAll (if s.mc.sys.blindLimit ≤ (s.line n).masked then [(.blind n, none)] else []) u := by
    intro u hu
    unfold raiseBlind
    rw [hu.mc, line_congr hu.lines]
    by_cases h : s.mc.sys.blindLimit ≤ (s.line n).masked <;> simp [h, hm, raiseAll]
  have cls : raiseClass n (s.line n).confirmed s = raiseAll
      ((classFaults n (s.line n).confirmed).map fun k => (k, some (.impedance (s.line n).zf (s.line n).deviation))) s := by
    unfold raiseClass
    cases (s.line n).confirmed <;> simp [classKey, classFaults, State.holdsClass, hm, raiseAll, Line.snapshot]
  unfold heldRaises State.heldOfLine; dsimp only
  by_cases hd : (s.line n).state = .disabled
  · rw [if_pos hd, if_pos hd]; rfl
  · rw [if_neg hd, if_neg hd, raiseAll_append]
    cases hc : (s.line n).confirmed with
    | normal | short => exact blind s (.refl s)
    | opened | low | high =>
      rw [hc] at cls
      simp only [reduceCtorEq, or_true, or_false, ↓reduceIte, cls]
      exact blind _ (raiseAll_same _ s)

theorem heldEarth_eq (s : State) (n : LineNo) : heldEarth s n = raiseAll (s.heldLeak n) s := by
  unfold heldEarth State.heldLeak; dsimp only
  split <;> rfl

/-- The held raises, as the statements list them (R51, R67). -/
theorem foldl_held (s : State) (hm : s.mc.mode = .active) :
    allLines.foldl heldEarth (allLines.foldl heldRaises s) = raiseAll s.heldFaults s := by
  have first : allLines.foldl heldRaises s = raiseAll (allLines.flatMap s.heldOfLine) s := by
    refine foldl_raiseAll heldRaises s.heldOfLine allLines s fun u n hu => ?_
    rw [heldRaises_eq u (by rw [hu.mc]; exact hm) n]
    simp only [State.heldOfLine, line_congr hu.lines, hu.mc]
  rw [first, heldFaults_eq, raiseAll_append]
  have same := raiseAll_same (allLines.flatMap s.heldOfLine) s
  generalize raiseAll (allLines.flatMap s.heldOfLine) s = v at same
  refine foldl_raiseAll heldEarth s.heldLeak allLines v fun u n hu => ?_
  rw [heldEarth_eq]
  simp only [State.heldLeak, line_congr (same.trans hu).lines]

theorem enterActive_eq (s : State) : enterActive s =
    grantAttempt id (raiseAll s.heldFaults { s with mc := { s.mc with mode := .active } }) := by
  unfold enterActive
  exact congrArg (grantAttempt id) (foldl_held { s with mc := { s.mc with mode := .active } } rfl)

/-! ### Grants that do not come (R91) -/

theorem passesOver_eq (s : State) (e : CoEntry) (h : s.passesOver e = true) : s.qualifies e = false := by
  simp only [State.passesOver, Bool.or_eq_true, Bool.and_eq_true, decide_eq_true_eq, Option.isNone_iff_eq_none] at h
  unfold State.qualifies
  obtain ⟨origin, emergency⟩ | ⟨kind, none⟩ := h
  · cases e.kind <;> simp [origin, emergency]
  · cases e.origin <;> simp [kind, none]

/-- No grant is made where one is in flight, or where no entry qualifies (R91). -/
theorem grantAttempt_none (arr : Arrive) (s : State) (h : s.co.op.isSome ∨ ∀ e ∈ s.co.queue, s.passesOver e = true) :
    grantAttempt arr s = s := by
  unfold grantAttempt
  split
  · rfl
  · next hn =>
    have queue := h.resolve_left fun ho => hn (.inl ho)
    have none : s.co.queue.find? s.qualifies = none :=
      List.find?_eq_none.mpr fun e he => by simp [passesOver_eq s e (queue e he)]
    rw [none]

/-! ### Mode control's part of a round's end (R151) -/

/-- The settle count after a round in SETTLING (R151). -/
def State.nextSettle (s : State) : Nat := min 15 (s.mc.settleCount + 1)

theorem countRound_settling (h : s.mc.mode = .settling) (hc : s.nextSettle < s.mc.sys.settleRounds) :
    countRound s = { s with mc := { s.mc with settleCount := s.nextSettle } } := by
  unfold countRound
  rw [if_pos h]
  dsimp only
  exact if_neg (Nat.not_le_of_lt hc)

theorem countRound_active (h : s.mc.mode = .settling) (hc : s.mc.sys.settleRounds ≤ s.nextSettle) :
    countRound s = grantAttempt id (raiseAll s.heldFaults
      { s with mc := { s.mc with mode := .active, settleCount := s.nextSettle } }) := by
  have entered : countRound s = enterActive { s with mc := { s.mc with settleCount := s.nextSettle } } := by
    unfold countRound
    rw [if_pos h]
    dsimp only
    exact if_pos hc
  rw [entered, enterActive_eq]
  rfl

/-! ### The end of a round part by part (R30, R151) -/

/-- The condition under which no grant follows a round's end: none is asked for, or none qualifies. -/
def State.noGrantFollows (s : State) : Prop :=
  s.mc.mode ≠ .settling ∨ s.nextSettle < s.mc.sys.settleRounds ∨ s.co.op.isSome ∨ ∀ e ∈ s.co.queue, s.passesOver e = true

/-- The move to ACTIVE with no grant behind it: the held raises alone (R151). -/
theorem countRound_raises (h : s.mc.mode = .settling) (hc : s.mc.sys.settleRounds ≤ s.nextSettle)
    (hg : s.co.op.isSome ∨ ∀ e ∈ s.co.queue, s.passesOver e = true) : countRound s =
      raiseAll s.heldFaults { s with mc := { s.mc with mode := .active, settleCount := s.nextSettle } } := by
  rw [countRound_active h hc]
  refine grantAttempt_none id _ ?_
  generalize hu : ({ s with mc := { s.mc with mode := .active, settleCount := s.nextSettle } } : State) = u
  have co : u.co = s.co := by rw [← hu]
  have passes : ∀ e, u.passesOver e = s.passesOver e := fun e => by rw [← hu]; rfl
  have same := raiseAll_same s.heldFaults u
  generalize raiseAll s.heldFaults u = v at same
  obtain ho | hq := hg
  · exact .inl (by rw [same.co, co]; exact ho)
  · refine .inr fun e he => ?_
    rw [same.co, co] at he
    have amps : ∀ k, v.amp k = u.amp k := fun k => amp_congr same.amps k
    have standby : v.grantable e.duty = u.grantable e.duty := by
      funext x
      simp only [State.grantable, State.carries, amps]
    have : v.passesOver e = u.passesOver e := by
      simp only [State.passesOver, State.emergency, same.mc, State.chosenStandby, standby]
    rw [this, passes]
    exact hq e he

/-- The measurement in flight stands where no grant follows: nothing else ends a learn job. -/
theorem countRound_inFlight (h : s.noGrantFollows) : (countRound s).chan = s.chan := by
  by_cases hm : s.mc.mode = .settling
  · by_cases hc : s.mc.sys.settleRounds ≤ s.nextSettle
    · have hg := (h.resolve_left (not_not_intro hm)).resolve_left (Nat.not_lt.mpr hc)
      rw [countRound_raises hm hc hg]
      exact (raiseAll_same _ _).chan
    · rw [countRound_settling hm (Nat.lt_of_not_le hc)]
  · rw [countRound_still s hm]

/-- Mode control after a round's end (R151). -/
theorem endRound_mc (s : State) : (endRound s).mc = (countRound s.roundOver).mc := by
  have same := (signalAll_same (countRound s.roundOver)).mc
  rw [endRound_eq]
  split
  · exact same
  · exact same

/-- A round's end but for the channel, with the latches set behind the raises (R30, R140). -/
theorem endRound_exact (s : State) : endRound s = { countRound s.roundOver with
    chan := (endRound s).chan, ports := (endRound s).ports } ∧
    ∀ p, (endRound s).port p = { (countRound s.roundOver).port p with
      latch := ((countRound s.roundOver).port p).latch || (countRound s.roundOver).anyEligible p } := by
  have exact := signalAll_exact (countRound s.roundOver)
  have port := fun p => port_signalAll (countRound s.roundOver) p
  rw [endRound_eq]
  split
  · refine ⟨?_, port⟩
    generalize signalAll (countRound s.roundOver) = t at exact
    generalize countRound s.roundOver = v at exact
    generalize t.ports = x at exact
    rw [exact]
    rfl
  · refine ⟨?_, port⟩
    generalize signalAll (countRound s.roundOver) = t at exact
    generalize countRound s.roundOver = v at exact
    generalize t.ports = x at exact
    rw [exact]

/-- The latches after a round's end (R140). -/
theorem endRound_latched (s : State) (p : Port) (h : (endRound s).anyEligible p = true) :
    ((endRound s).port p).latch = true := by
  have port := port_signalAll (countRound s.roundOver) p
  have eligible := anyEligible_signalAll (countRound s.roundOver) p
  have latched : ∀ t : State, t.ports = (signalAll (countRound s.roundOver)).ports →
      t.faults = (signalAll (countRound s.roundOver)).faults → t.anyEligible p = true → (t.port p).latch = true := by
    intro t hp hf he
    have same : t.port p = (signalAll (countRound s.roundOver)).port p := port_congr hp p
    have : t.anyEligible p = (countRound s.roundOver).anyEligible p := by
      rw [← eligible]
      simp only [State.anyEligible, State.lowestEligible, funext fun c => show
        t.eligible p c = (signalAll (countRound s.roundOver)).eligible p c by simp only [State.eligible, hf, same]]
    rw [same, port, ← this, he]
    exact Bool.or_true _
  revert h
  rw [endRound_eq]
  split
  · exact latched _ rfl rfl
  · exact latched _ rfl rfl

/-- The measurement in flight at a round's end (R30). -/
theorem endRound_flight (s : State) (h : s.roundOver.noGrantFollows) : (endRound s).chan.inFlight = s.chan.inFlight := by
  have counted := countRound_inFlight h
  have same := (signalAll_same (countRound s.roundOver)).chan
  have flight : ∀ t : State, t.chan.inFlight = (signalAll (countRound s.roundOver)).chan.inFlight →
      t.chan.inFlight = s.chan.inFlight := fun t ht => by
    rw [ht, same, counted]
    rfl
  rw [endRound_eq]
  split
  · exact flight _ rfl
  · exact flight _ rfl

/-- The slots of the next round, as the state after it shows them (R28). -/
theorem endRound_slots (s : State) (h : s.runs = true) :
    (endRound s).chan.round = some ⟨(endRound s).slotsOf (s.chan.roundNumber + 1), 0, 250⟩ := by
  rw [endRound_round h, slotList_eq]
  have same := signalAll_same (countRound s.roundOver)
  have number : (signalAll (countRound s.roundOver)).chan.roundNumber = s.chan.roundNumber + 1 := by
    rw [same.chan]
    exact (chanKept_closed.countRound s.roundOver).number
  have started : endRound s = startRound (signalAll (countRound s.roundOver)) := endRound_runs s h
  rw [number, started]
  rfl

/-- Outside SETTLING, and in SETTLING before the settle rounds are reached, a round's end changes the channel, the latches
and the settle count alone (R30, R151). -/
theorem endRound_counts (s : State) (c : Nat)
    (h : countRound s.roundOver = { s.roundOver with mc := { s.mc with settleCount := c } }) :
    endRound s = { s with
      chan := (endRound s).chan, ports := (endRound s).ports, mc := { s.mc with settleCount := c } } ∧
    ∀ p, (endRound s).port p = { s.port p with latch := (s.port p).latch || s.anyEligible p } := by
  obtain ⟨exact, port⟩ := endRound_exact s
  rw [h] at exact port
  generalize endRound s = t at exact port
  exact ⟨exact, port⟩

/-- The move to ACTIVE at a round's end with no grant behind it (R51, R67, R151). -/
theorem endRound_raises (s : State) (h : s.mc.mode = .settling) (hc : s.mc.sys.settleRounds ≤ min 15 (s.mc.settleCount + 1))
    (hg : s.co.op.isSome ∨ ∀ e ∈ s.co.queue, s.passesOver e = true) :
    endRound s = { s with
      faults := (endRound s).faults, chan := (endRound s).chan, ports := (endRound s).ports, mc := (endRound s).mc } ∧
    (endRound s).faults =
      (raiseAll s.heldFaults { s with chan := { s.chan with roundNumber := s.chan.roundNumber + 1 } }).faults := by
  have counted := countRound_raises (s := s.roundOver) h hc hg
  obtain ⟨exact, -⟩ := endRound_exact s
  have raised := raiseAll_exact s.roundOver.heldFaults
    { s.roundOver with mc := { s.mc with mode := .active, settleCount := s.roundOver.nextSettle } }
  have table : SameTable { s.roundOver with mc := { s.mc with mode := .active, settleCount := s.roundOver.nextSettle } }
      { s with chan := { s.chan with roundNumber := s.chan.roundNumber + 1 } } := ⟨rfl, rfl, rfl⟩
  have faults := (raiseAll_table s.heldFaults table).faults
  have held : s.roundOver.heldFaults = s.heldFaults := rfl
  rw [held] at counted raised
  have v : countRound s.roundOver = raiseAll s.heldFaults
    { s.roundOver with mc := { s.mc with mode := .active, settleCount := s.roundOver.nextSettle } } := counted
  rw [v] at exact
  generalize raiseAll s.heldFaults
    { s.roundOver with mc := { s.mc with mode := .active, settleCount := s.roundOver.nextSettle } } = w at exact raised faults
  generalize endRound s = t at exact
  generalize w.ports = y at raised
  generalize w.faults = z at raised faults
  rw [raised] at exact
  refine ⟨?_, (congrArg State.faults exact).trans faults.symm⟩
  generalize t.chan = c at exact
  generalize t.ports = y' at exact
  rw [exact]
  rfl

/-! ### The statements' parts -/

/-- An arrival while supervision runs and no verify entry can be granted (R33). -/
theorem arrival_served (s : State) (hf : s.chan.inFlight = none) (hr : s.runs = true)
    (hv : ∀ y ∈ s.chan.verify, s.grantsVerify y = false) {kept : List Subject}
    (hk : kept = s.chan.verify.filter s.keptInVerify) :
    (∀ pre x rest, s.chan.confirm = pre ++ x :: rest → (∀ y ∈ pre, s.grantsConfirm y = false) →
      s.grantsConfirm x = true →
      s.chan.rotation = .scan ∨ (s.chan.rotation = .learn ∧ s.scanWaits = true) ∨
        (s.chan.rotation = .confirm ∧ s.grantsLearn = false ∧ s.scanWaits = true) →
      arrival s = { s with chan := { s.chan with
        verify := kept, confirm := pre.filter s.keptInConfirm ++ rest, rotation := .confirm
        inFlight := some (s.granted x.target .confirm none) } }) ∧
    (∀ j, s.chan.job = some j → s.grantsLearn = true →
      s.chan.rotation = .confirm ∨ ((s.chan.rotation = .scan ∨ s.scanWaits = true) ∧
        ∀ y ∈ s.chan.confirm, s.grantsConfirm y = false) →
      arrival s = { s with chan := { s.chan with
        verify := kept
        confirm := if s.chan.rotation = .confirm then s.chan.confirm else s.chan.confirm.filter s.keptInConfirm
        job := some { j with granted := j.granted + 1 }, rotation := .learn
        inFlight := some (s.granted (.line j.line) .learn none) } }) ∧
    (∀ r, s.chan.round = some r → ∀ pre x rest, r.slots.drop r.pos = pre ++ x :: rest →
      (∀ y ∈ pre, s.slotKept y = false) → s.slotKept x = true →
      s.chan.rotation = .learn ∨ (s.chan.rotation = .confirm ∧ s.grantsLearn = false) ∨
        (s.chan.rotation = .scan ∧ s.grantsLearn = false ∧ ∀ y ∈ s.chan.confirm, s.grantsConfirm y = false) →
      (s.slotAtRest x = true → arrival s = { s with chan := { s.chan with
        verify := kept
        confirm := if s.chan.rotation = .scan then s.chan.confirm.filter s.keptInConfirm else s.chan.confirm
        rotation := .scan, round := some { r with pos := r.pos + pre.length + 1 }
        inFlight := some (s.granted x .scan (some (r.pos + pre.length))) } }) ∧
      (s.slotAtRest x = false → s.chan.confirm = [] → s.chan.job = none → arrival s = { s with chan := { s.chan with
        verify := kept, round := some { r with pos := r.pos + pre.length } } })) ∧
    (s.scanWaits = true → s.grantsLearn = false → (∀ y ∈ s.chan.confirm, s.grantsConfirm y = false) →
      arrival s = { s with chan := { s.chan with
        verify := kept, confirm := s.chan.confirm.filter s.keptInConfirm } }) := by
  subst hk
  exact ⟨fun pre x rest h hp hx turn => arrival_confirm s hf hr hv h hp hx turn,
    fun j hj hg turn => arrival_learn s hf hr hv hj hg turn,
    fun r hround pre x rest h hp hx turn => ⟨fun ha => arrival_scan s hf hr hv hround h hp hx turn ha,
      fun ha hc hj => arrival_scan_waits s hf hr hv hround h hp hx ha hc hj⟩,
    fun waits quiet none => arrival_nothing s hf hr hv waits quiet none⟩

/-- An arrival in STOPPING that grants nothing (R35). -/
theorem arrival_stops (s : State) (hf : s.chan.inFlight = none) (hm : s.mc.mode = .stopping)
    (hv : ∀ y ∈ s.chan.verify, s.grantsVerify y = false) {kept : List Subject}
    (hk : kept = s.chan.verify.filter s.keptInVerify) :
    (s.co.op.isSome → arrival s = { s with chan := { s.chan with verify := kept } }) ∧
    (s.co.op = none → ∀ t, t = arrival s →
      t = { s with
        chan := { s.chan with verify := kept }, mc := { s.mc with mode := .standby }
        lines := t.lines, ports := t.ports } ∧
      (∀ n, t.line n = { s.line n with timer := (s.line n).timer.freeze }) ∧
      ∀ q, t.port q = { s.port q with latch := (s.port q).latch || s.anyEligible q }) := by
  have stopping := arrival_stopping s hf hm hv
  subst hk
  refine ⟨fun ho => ?_, fun ho t ht => ?_⟩
  · rw [stopping]
    exact checkStopped_operated s.unverified ho
  · have done : t = enterStandby s.unverified := ht.trans (stopping.trans (checkStopped_done s.unverified hm hf ho))
    obtain ⟨exact, line, port⟩ := enterStandby_exact s.unverified
    rw [← done] at exact line port
    exact ⟨exact, line, port⟩

/-- The end of a round, as the statements say it (R30, R151). -/
theorem endRound_settles (s : State) (h : s.mc.mode = .settling) (c : Nat) (hc : c = min 15 (s.mc.settleCount + 1)) :
    (c < s.mc.sys.settleRounds → endRound s = { s with
        chan := (endRound s).chan, ports := (endRound s).ports, mc := { s.mc with settleCount := c } } ∧
      ∀ p, (endRound s).port p = { s.port p with latch := (s.port p).latch || s.anyEligible p }) ∧
    (s.mc.sys.settleRounds ≤ c → (endRound s).mc = { s.mc with mode := .active, settleCount := c }) := by
  subst hc
  refine ⟨fun hlt => endRound_counts s _ (countRound_settling (s := s.roundOver) h hlt), fun hle => ?_⟩
  have active := countRound_active (s := s.roundOver) h hle
  rw [endRound_mc, active, grantAttempt_id_mc]
  exact (raiseAll_same _ _).mc

end Sys2Proof.Machine

open Sys2Proof.Machine in
/-- Settles O46: the search class by class as exact next states, and the end of a round with what mode control does. -/
theorem arbiterServesInOrderAndRoundsFollow : Obligations.ArbiterServesInOrderAndRoundsFollow := by
  refine ⟨fun s => ⟨arrival_still s, fun hf hr pre x rest h hp hx => arrival_verify s hf hr h hp hx,
    fun hv hf kept hk => ⟨fun hm => arrival_stops s hf hm hv hk, fun hr => arrival_served s hf hr hv hk⟩⟩,
    fun s number hn t ht => ?_,
    fun s hf hr hv turn round hround hs hp => arrival_skips_last hf hr hv turn hround hs hp,
    fun r s m hf hreset hm hfits hr round hround hs last => ?_⟩
  · subst hn ht
    refine ⟨endRound_number s, fun h => endRound_flight s h, fun hr => ⟨endRound_slots s hr, endRound_keeps_runs hr⟩,
      fun hr => ?_, endRound_latched s, fun hm => ?_, fun hm c hc => ?_⟩
    · rw [endRound_rests s hr]
      have same := signalAll_same s.roundOver
      exact ⟨by rw [same.chan]; rfl, same.mc⟩
    · exact endRound_counts s s.mc.settleCount (countRound_still s.roundOver hm)
    · obtain ⟨counts, active⟩ := endRound_settles s hm c hc
      refine ⟨counts, fun hle => ⟨active hle, fun hg => endRound_raises s hm (by rw [← hc]; exact hle) hg⟩⟩
  · have taken : exec (.measurementCompletion r) s = .next (completeMeasurement m r s) := by
      change execMeasurementCompletion r s = _
      unfold execMeasurementCompletion
      exact (takeEvent_taken s hreset _).trans (by simp only [hf, hfits, ↓reduceIte])
    exact ⟨_, taken, completeMeasurement_lastSlot r hr hm hround hs last⟩
end

section
/-! PROOFS. A line that waits in a queue of the channel keeps its place until it is granted (R25, R26, R34). -/

namespace Sys2Proof.Machine

variable {s t u : State} (n : LineNo)

/-! ### The queues through a round's end -/

theorem endRound_verify (s : State) : .line n ∈ (endRound s).chan.verify ↔ .line n ∈ s.chan.verify :=
  (endRound_counted s).verify n

theorem endRound_confirm (s : State) : .line n ∈ (endRound s).chan.confirm ↔ .line n ∈ s.chan.confirm :=
  (endRound_counted s).confirm n

/-- From `s` to `t` the queues' lines stand, and only a grant of class `c` has been made. -/
structure QueuesKept (c : GrantClass) (s t : State) : Prop where
  lines : KeepsLines s t
  verify : ∀ n, .line n ∈ t.chan.verify ↔ .line n ∈ s.chan.verify
  confirm : ∀ n, .line n ∈ t.chan.confirm ↔ .line n ∈ s.chan.confirm
  granted : ∀ m, t.chan.inFlight = some m → m.cls = c

theorem granted_cls (s : State) (x : Target) (c : GrantClass) (i : Option Nat) : (s.granted x c i).cls = c := by
  cases x <;> rfl

theorem takeSlot_queues (h : QueuesKept .scan s t) (r : Round) (i : Nat) (x : Target) :
    QueuesKept .scan s (takeSlot r i x t) := by
  cases ha : t.slotAtRest x with
  | true =>
    rw [takeSlot_rest t r i ha]
    refine ⟨h.lines.trans (.of_lines rfl), h.verify, h.confirm, fun m hm => ?_⟩
    obtain rfl := Option.some.inj hm
    exact granted_cls t x _ _
  | false =>
    rw [takeSlot_waits t r i ha]
    exact ⟨h.lines.trans (.of_lines rfl), h.verify, h.confirm, h.granted⟩

theorem tryScan_queues (hf : s.chan.inFlight = none) : QueuesKept .scan s (tryScan s) := by
  have self : QueuesKept .scan s s := ⟨.refl s, fun _ => .rfl, fun _ => .rfl, fun m hm => by rw [hf] at hm; cases hm⟩
  unfold tryScan; split
  · exact self
  · split
    · exact self
    · split
      · exact takeSlot_queues self _ _ _
      · have ended : QueuesKept .scan s (endRound s) := by
          refine ⟨endRound_keeps s, fun n => endRound_verify n s, fun n => endRound_confirm n s, fun m hm => ?_⟩
          have none := endRound_inFlight s
          rw [hm, hf] at none
          cases none
        unfold tryFirstSlot; split
        · exact ended
        · split
          · exact takeSlot_queues ended _ _ _
          · exact ended

theorem tryLearn_queues (hf : s.chan.inFlight = none) : QueuesKept .learn s (tryLearn s) := by
  have self : QueuesKept .learn s s := ⟨.refl s, fun _ => .rfl, fun _ => .rfl, fun m hm => by rw [hf] at hm; cases hm⟩
  cases hg : s.grantsLearn with
  | false => rw [tryLearn_none s hg]; exact self
  | true =>
    cases hj : s.chan.job with
    | none => rw [tryLearn_none s (by simp [State.grantsLearn, hj])]; exact self
    | some j =>
      rw [tryLearn_some s hj hg]
      refine ⟨.of_lines rfl, fun _ => .rfl, fun _ => .rfl, fun m hm => ?_⟩
      obtain rfl := Option.some.inj hm
      rfl

/-! ### A line that waits for a confirmation (R26) -/

/-- Line `n` is CONNECTED, and in the confirm queue or granted from it. -/
def State.awaitsConfirm (s : State) (n : LineNo) : Prop := (s.line n).state = .connected ∧ s.confirmFollows (.line n) = true

/-- Line `n` is neither in the confirm queue nor granted from it. -/
def State.unconfirmedLine (s : State) (n : LineNo) : Prop :=
  .line n ∉ s.chan.confirm ∧ ∀ m, s.chan.inFlight = some m → m.cls = .confirm → m.target ≠ .line n

theorem KeepsLines.state (h : KeepsLines s t) : (t.line n).state = (s.line n).state := by
  obtain ⟨_, _, _, _, _, _, e⟩ := h n
  rw [e]

theorem confirmFollows_of_mem (h : .line n ∈ s.chan.confirm) : s.confirmFollows (.line n) = true := by
  simp [State.confirmFollows, h]

theorem mem_of_confirmFollows (hf : s.chan.inFlight = none) (h : s.confirmFollows (.line n) = true) :
    .line n ∈ s.chan.confirm := by
  simpa [State.confirmFollows, hf] using h

variable {n} in
theorem State.awaitsConfirm.of_queues {c : GrantClass} (h : s.awaitsConfirm n) (hf : s.chan.inFlight = none)
    (g : QueuesKept c s t) : t.awaitsConfirm n :=
  ⟨(g.lines.state n).trans h.1, confirmFollows_of_mem n ((g.confirm n).mpr (mem_of_confirmFollows n hf h.2))⟩

/-- The search keeps a CONNECTED line in the confirm queue until it grants it (R34). -/
theorem awaitsConfirm_search : SearchKeeps (State.awaitsConfirm · n) where
  verify s hf h := by
    have mem := mem_of_confirmFollows n hf h.2
    obtain hp | ⟨pre, x, rest, hs, hp, hx⟩ := first_or_none s.grantsVerify s.chan.verify
    · rw [tryVerify_none s hp]
      exact ⟨h.1, confirmFollows_of_mem n mem⟩
    · rw [tryVerify_some s hs hp hx]
      exact ⟨h.1, confirmFollows_of_mem n mem⟩
  confirm s hf h := by
    have mem := mem_of_confirmFollows n hf h.2
    have keeps : s.keptInConfirm (.line n) = true := by simp [State.keptInConfirm, h.1]
    obtain hp | ⟨pre, x, rest, hs, hp, hx⟩ := first_or_none s.grantsConfirm s.chan.confirm
    · rw [tryConfirm_none s hp]
      exact ⟨h.1, confirmFollows_of_mem n (List.mem_filter.mpr ⟨mem, keeps⟩)⟩
    · rw [tryConfirm_some s hs hp hx]
      refine ⟨h.1, ?_⟩
      rw [hs] at mem
      obtain hpre | hx | hrest : .line n ∈ pre ∨ .line n = x ∨ .line n ∈ rest := by simpa using mem
      · exact confirmFollows_of_mem n (List.mem_append_left _ (List.mem_filter.mpr ⟨hpre, keeps⟩))
      · subst hx
        have same : ∀ c : Channel, ({ s with chan := c } : State).granted (.line n) .confirm none =
            s.granted (.line n) .confirm none := fun _ => rfl
        simp only [State.confirmFollows, Bool.or_eq_true, decide_eq_true_eq]
        exact .inr rfl
      · exact confirmFollows_of_mem n (List.mem_append_right _ hrest)
  learn _ hf h := h.of_queues hf (tryLearn_queues hf)
  scan _ hf h := h.of_queues hf (tryScan_queues hf)

theorem unconfirmed_of_queues {c : GrantClass} (hc : c ≠ .confirm) (h : s.unconfirmedLine n) (g : QueuesKept c s t) :
    t.unconfirmedLine n :=
  ⟨fun hm => h.1 ((g.confirm n).mp hm), fun m hm hcls => absurd ((g.granted m hm).symm.trans hcls) hc⟩

/-- The search puts no line into the confirm queue (R26). -/
theorem unconfirmed_search : SearchKeeps (State.unconfirmedLine · n) where
  verify s hf h := by
    obtain hp | ⟨pre, x, rest, hs, hp, hx⟩ := first_or_none s.grantsVerify s.chan.verify
    · rw [tryVerify_none s hp]
      exact h
    · rw [tryVerify_some s hs hp hx]
      refine ⟨h.1, fun m hm hcls => ?_⟩
      obtain rfl := Option.some.inj hm
      rw [granted_cls] at hcls
      cases hcls
  confirm s hf h := by
    obtain hp | ⟨pre, x, rest, hs, hp, hx⟩ := first_or_none s.grantsConfirm s.chan.confirm
    · rw [tryConfirm_none s hp]
      exact ⟨fun hm => h.1 (List.mem_filter.mp hm).1, h.2⟩
    · rw [tryConfirm_some s hs hp hx]
      have absent := h.1
      rw [hs] at absent
      obtain ⟨hpre, hne, hrest⟩ : .line n ∉ pre ∧ ¬.line n = x ∧ .line n ∉ rest := by simpa using absent
      refine ⟨?_, fun m hm _ => ?_⟩
      · simp [hpre, hrest]
      · obtain rfl := Option.some.inj hm
        cases x with
        | line k => exact fun e => hne (by simpa [State.granted, Subject.target, eq_comm] using e)
        | amp k => simp [State.granted, Subject.target]
  learn _ hf h := unconfirmed_of_queues n (by decide) h (tryLearn_queues hf)
  scan _ hf h := unconfirmed_of_queues n (by decide) h (tryScan_queues hf)

/-! ### A line that waits for a probe reading (R25) -/

/-- Line `n` is PROBING, and in the verify queue or granted from it. -/
def State.awaitsProbe (s : State) (n : LineNo) : Prop := (s.line n).state = .probing ∧ s.verifyFollows (.line n) = true

theorem verifyFollows_of_mem (h : .line n ∈ s.chan.verify) : s.verifyFollows (.line n) = true := by
  simp [State.verifyFollows, h]

theorem mem_of_verifyFollows (hf : s.chan.inFlight = none) (h : s.verifyFollows (.line n) = true) :
    .line n ∈ s.chan.verify := by
  simpa [State.verifyFollows, hf] using h

variable {n} in
theorem State.awaitsProbe.of_queues {c : GrantClass} (h : s.awaitsProbe n) (hf : s.chan.inFlight = none)
    (g : QueuesKept c s t) : t.awaitsProbe n :=
  ⟨(g.lines.state n).trans h.1, verifyFollows_of_mem n ((g.verify n).mpr (mem_of_verifyFollows n hf h.2))⟩

/-- The search keeps a PROBING line in the verify queue until it grants it (R34). -/
theorem awaitsProbe_search : SearchKeeps (State.awaitsProbe · n) where
  verify s hf h := by
    have mem := mem_of_verifyFollows n hf h.2
    have keeps : s.keptInVerify (.line n) = true := by simp [State.keptInVerify, h.1]
    obtain hp | ⟨pre, x, rest, hs, hp, hx⟩ := first_or_none s.grantsVerify s.chan.verify
    · rw [tryVerify_none s hp]
      exact ⟨h.1, verifyFollows_of_mem n (List.mem_filter.mpr ⟨mem, keeps⟩)⟩
    · rw [tryVerify_some s hs hp hx]
      refine ⟨h.1, ?_⟩
      rw [hs] at mem
      obtain hpre | hx | hrest : .line n ∈ pre ∨ .line n = x ∨ .line n ∈ rest := by simpa using mem
      · exact verifyFollows_of_mem n (List.mem_append_left _ (List.mem_filter.mpr ⟨hpre, keeps⟩))
      · subst hx
        simp only [State.verifyFollows, Bool.or_eq_true, decide_eq_true_eq]
        exact .inr rfl
      · exact verifyFollows_of_mem n (List.mem_append_right _ hrest)
  confirm s hf h := by
    have mem := mem_of_verifyFollows n hf h.2
    obtain hp | ⟨pre, x, rest, hs, hp, hx⟩ := first_or_none s.grantsConfirm s.chan.confirm
    · rw [tryConfirm_none s hp]
      exact ⟨h.1, verifyFollows_of_mem n mem⟩
    · rw [tryConfirm_some s hs hp hx]
      exact ⟨h.1, verifyFollows_of_mem n mem⟩
  learn _ hf h := h.of_queues hf (tryLearn_queues hf)
  scan _ hf h := h.of_queues hf (tryScan_queues hf)

/-! ### The search after a completion (R32, R36) -/

theorem enterStandby_chan (s : State) : (enterStandby s).chan = s.chan := (signalAll_same _).chan

theorem enterStandby_epoch (s : State) : ((enterStandby s).line n).epoch = (s.line n).epoch ∧
    ((enterStandby s).line n).state = (s.line n).state := by
  have line : (enterStandby s).line n = { s.line n with timer := (s.line n).timer.freeze } :=
    (line_congr (signalAll_same _).lines n).trans (line_mapLines _ _ n)
  rw [line]
  exact ⟨rfl, rfl⟩

theorem granted_of_epoch (c : GrantClass) (h : (t.line n).epoch = (s.line n).epoch) :
    t.granted (.line n) c none = s.granted (.line n) c none := by simp [State.granted, h]

/-- What the completion of a measurement does behind the delivery: the report of a move, the round, the search (R36). -/
def afterResult (m : Measurement) (s : State) : State := channelFree (slotCompleted m (reportMove id s))

theorem completeMeasurement_after (m : Measurement) (r : Reading) (s : State) :
    completeMeasurement m r s = afterResult m (resultTaken m r s) := rfl

theorem afterResult_rested (m : Measurement) (s : State) : Rested s (afterResult m s) :=
  ((rested_closed.reportMove s rested_closed.refl).trans (rested_search.slotCompleted m _)).trans (rested_search.channelFree _)

/-- The queues' lines before the search that follows a completion. -/
theorem beforeSearch_queues (m : Measurement) (s : State) :
    KeepsLines s (slotCompleted m (reportMove id s)) ∧
    (.line n ∈ (slotCompleted m (reportMove id s)).chan.verify ↔ .line n ∈ s.chan.verify) ∧
    (.line n ∈ (slotCompleted m (reportMove id s)).chan.confirm ↔ .line n ∈ s.chan.confirm) := by
  have reported : ChanKept s (reportMove id s) := chanKept_closed.reportMove s chanKept_closed.refl
  have lines : KeepsLines s (reportMove id s) := (rested_closed.reportMove s rested_closed.refl).line
  generalize reportMove id s = v at reported lines
  unfold slotCompleted; split
  · exact ⟨lines.trans (endRound_keeps v), (endRound_verify n v).trans (reported.verify n),
      (endRound_confirm n v).trans (reported.confirm n)⟩
  · exact ⟨lines, reported.verify n, reported.confirm n⟩

theorem afterResult_confirm (m : Measurement) (hc : (s.line n).state = .connected) (h : .line n ∈ s.chan.confirm) :
    (afterResult m s).confirmFollows (.line n) = true := by
  obtain ⟨lines, -, confirm⟩ := beforeSearch_queues n m s
  unfold afterResult
  generalize slotCompleted m (reportMove id s) = v at lines confirm
  refine ((awaitsConfirm_search n).channelFree (fun u hu => ?_) ⟨(lines.state n).trans hc,
    confirmFollows_of_mem n (confirm.mpr h)⟩).2
  obtain ⟨epoch, state⟩ := enterStandby_epoch n u
  refine ⟨state.trans hu.1, ?_⟩
  have := hu.2
  simp only [State.confirmFollows, Subject.target, enterStandby_chan, granted_of_epoch n .confirm epoch] at this ⊢
  exact this

theorem afterResult_unconfirmed (m : Measurement) (h : .line n ∉ s.chan.confirm) :
    (afterResult m s).confirmFollows (.line n) = false := by
  obtain ⟨-, -, confirm⟩ := beforeSearch_queues n m s
  have kept : (afterResult m s).unconfirmedLine n := by
    unfold afterResult
    generalize slotCompleted m (reportMove id s) = v at confirm
    refine (unconfirmed_search n).channelFree (fun u hu => ?_) ⟨fun hm => h (confirm.mp hm), fun m hm => by cases hm⟩
    unfold State.unconfirmedLine
    rw [enterStandby_chan]
    exact hu
  have free : (afterResult m s).chan.inFlight ≠ some ((afterResult m s).granted (.line n) .confirm none) :=
    fun e => kept.2 _ e rfl rfl
  simp [State.confirmFollows, kept.1, Subject.target, free]

theorem afterResult_verify (m : Measurement) (hp : (s.line n).state = .probing) (h : .line n ∈ s.chan.verify) :
    (afterResult m s).verifyFollows (.line n) = true := by
  obtain ⟨lines, verify, -⟩ := beforeSearch_queues n m s
  unfold afterResult
  generalize slotCompleted m (reportMove id s) = v at lines verify
  refine ((awaitsProbe_search n).channelFree (fun u hu => ?_) ⟨(lines.state n).trans hp,
    verifyFollows_of_mem n (verify.mpr h)⟩).2
  obtain ⟨epoch, state⟩ := enterStandby_epoch n u
  refine ⟨state.trans hu.1, ?_⟩
  have := hu.2
  simp only [State.verifyFollows, Subject.target, enterStandby_chan, granted_of_epoch n .verify epoch] at this ⊢
  exact this

end Sys2Proof.Machine
end

section
/-! PROOFS. Classification readings (O47): the delivery, the debounce and the confirm queue behind it. -/

namespace Sys2Proof.Machine

variable {s t u : State} {n : LineNo} {m : Measurement}

/-! ### A result taken, and what the completion leaves of it (R36, R37) -/

theorem completion_taken {r : Reading} (hf : s.chan.inFlight = some m) (hreset : s.mc.resetInForce = none)
    (hfits : r.fits m.target = true) : exec (.measurementCompletion r) s = .next (afterResult m (resultTaken m r s)) := by
  change execMeasurementCompletion r s = _
  unfold execMeasurementCompletion
  exact (takeEvent_taken s hreset _).trans (by simp only [hf, hfits, ↓reduceIte, completeMeasurement_after])

theorem afterResult_store (m : Measurement) (r : Reading) (s : State) :
    (afterResult m (resultTaken m r s)).store = s.store :=
  (completeMeasurement_block s m r).store

/-- What stands of a record that the result has left, at rest, behind the completion. -/
theorem afterResult_line {l : Line} {timer : RetryTimer} (hr : u.runs = s.runs) (hl : KeptLine l (u.line n))
    (ht : (u.line n).timer = timer) :
    l.keptIn ((afterResult m u).line n) ∧ ((afterResult m u).line n).timer.restsAs timer s.runs = true := by
  obtain ⟨-, line, rests⟩ := afterResult_rested m u
  refine ⟨(hl.trans (line n)).keptIn, ?_⟩
  rw [← ht, ← hr]
  exact rests n

theorem afterResult_self (hr : u.runs = s.runs) (hl : u.line n = s.line n) :
    (s.line n).keptIn ((afterResult m u).line n) ∧
      ((afterResult m u).line n).timer.restsAs (s.line n).timer s.runs = true :=
  afterResult_line hr (by rw [hl]; exact .refl _) (by rw [hl])

/-- Every line that the result is not about stands. -/
theorem OnlyLine.afterResult (h : OnlyLine n s u) (k : LineNo) (hk : k ≠ n) :
    (s.line k).keptIn ((afterResult m u).line k) ∧
      ((Machine.afterResult m u).line k).timer.restsAs (s.line k).timer s.runs = true := by
  obtain ⟨a, e⟩ := h.others k hk
  exact afterResult_line h.work.runs ⟨_, _, _, _, _, _, e⟩ (by rw [e])

theorem isStale_line (ht : m.target = .line n) : s.isStale m = true ↔ m.epochCopy ≠ some (s.line n).epoch := by
  simp [State.isStale, ht]

theorem isStale_earth (ht : m.target = .earth n) : s.isStale m = true ↔ m.epochCopy ≠ some (s.line n).epoch := by
  simp [State.isStale, ht]

/-- A LINE result of any class does its work on its own line. -/
theorem resultTaken_line_closed {R : State → State → Prop} (hR : LineClosed n R) (vc ic : Code) (masked : Bool)
    (ht : m.target = .line n) : R s (resultTaken m (.line vc ic masked) s) := by
  have conf : R s (if 0 < (s.line n).count then placeConfirm (.line n) s else s) := by
    split
    · exact hR.placeConfirm s _
    · exact hR.refl s
  have ver : R s (if (s.line n).state = .probing then placeVerify id (.line n) s else s) := by
    split
    · exact hR.placeVerify s _
    · exact hR.refl s
  unfold resultTaken placeStale deliver deliverLine
  rw [ht]
  split
  · cases m.cls with
    | scan => exact conf
    | confirm => exact conf
    | verify => exact ver
    | learn => exact hR.refl s
  · cases m.cls with
    | scan => exact hR.classificationReading s vc ic masked
    | confirm => exact hR.classificationReading s vc ic masked
    | verify => exact hR.probeReading s vc ic masked
    | learn =>
      dsimp only
      split
      · exact hR.refl s
      · exact hR.learnSample s vc ic masked

/-- A stale classification result places its line where its debounce counts (R37). -/
theorem resultTaken_stale (r : Reading) (ht : m.target = .line n) (hc : m.cls = .scan ∨ m.cls = .confirm)
    (he : m.epochCopy ≠ some (s.line n).epoch) :
    resultTaken m r s = if 0 < (s.line n).count then placeConfirm (.line n) s else s := by
  have stale := (isStale_line ht).mpr he
  obtain hc | hc := hc <;> simp [resultTaken, stale, placeStale, hc, ht]

/-- Any other classification result is delivered (R36). -/
theorem resultTaken_classified (vc ic : Code) (masked : Bool) (ht : m.target = .line n)
    (hc : m.cls = .scan ∨ m.cls = .confirm) (he : m.epochCopy = some (s.line n).epoch) :
    resultTaken m (.line vc ic masked) s = classificationReading n vc ic masked s := by
  have fresh : ¬s.isStale m = true := fun h => (isStale_line ht).mp h he
  obtain hc | hc := hc <;> simp [resultTaken, fresh, deliver, deliverLine, hc, ht]

/-! ### The confirm queue behind a classification reading (R8, R49) -/

theorem maskedStep_chan (n : LineNo) (s : State) : (maskedStep n s).chan = s.chan := (raiseBlind_same _ n).chan

theorem usableStep_chan (n : LineNo) (s : State) : (usableStep n s).chan = s.chan := by
  unfold usableStep; split
  · exact (clear_same s _ _).chan
  · rfl

theorem placeLineIfCounting_still (h : (s.line n).count = 0) : placeLineIfCounting n s = s := by
  simp [placeLineIfCounting, h]

theorem placeLineIfCounting_placed (hc : (s.line n).state = .connected) (h : 0 < (s.line n).count) :
    placeLineIfCounting n s = placeConfirm (.line n) s := if_pos ⟨hc, h⟩

/-- A reading that leaves its line CONNECTED and counting places it (R26, R49). -/
theorem confirmFollows_counting (hr : u.runs = true) (hc : (u.line n).state = .connected) (h : 0 < (u.line n).count) :
    (afterResult m (placeLineIfCounting n u)).confirmFollows (.line n) = true := by
  rw [placeLineIfCounting_placed hc h]
  exact afterResult_confirm n m (by rw [line_placeConfirm]; exact hc) (mem_placeConfirm u _ hr)

/-- A reading that leaves a count of 0 places nothing. -/
theorem confirmFollows_still (h : (u.line n).count = 0) (hq : .line n ∉ u.chan.confirm) :
    (afterResult m (placeLineIfCounting n u)).confirmFollows (.line n) = false := by
  rw [placeLineIfCounting_still h]
  exact afterResult_unconfirmed n m hq

theorem isolateProtectively_withdraws (n : LineNo) (old : LineClass) (s : State) :
    .line n ∉ (isolateProtectively n old s).chan.confirm := by
  unfold isolateProtectively
  dsimp only
  rw [startRetry_eq]
  change .line n ∉ (sendClassChange n old .short _).chan.confirm
  rw [(sendClassChange_same _ n old .short).chan]
  simp [withdrawConfirm]

/-- The class that a usable reading confirms is SHORT (R8). -/
def Line.isolates (l : Line) (vc ic : Code) : Prop := l.confirmsClass vc ic = true ∧ (l.judged vc ic).confirmed = .short

theorem classJudged_chan (vc ic : Code) (h : ¬(s.line n).isolates vc ic) : (classJudged n vc ic s).chan = s.chan := by
  unfold classJudged; dsimp only; split
  · next hc =>
    have : ((s.line n).judged vc ic).confirmed ≠ .short := fun e => h ⟨hc, e⟩
    simp only [confirmedChange, line_setLine_same, this, false_and, ↓reduceIte]
    exact (sendClassChange_same _ n _ _).chan
  · rfl

theorem classJudged_isolates (vc ic : Code) (hc : (s.line n).state = .connected) (h : (s.line n).isolates vc ic) :
    classJudged n vc ic s = isolateProtectively n (s.line n).confirmed (s.setLine n ((s.line n).judged vc ic)) := by
  have state : ((s.line n).judged vc ic).state = .connected := hc
  simp [classJudged, confirmedChange, h.1, h.2, state]

/-- The record that a usable classification reading leaves, but for what a selector order may touch (R8, R41 to R48). -/
theorem line_usableStep_classJudged (vc ic : Code) (hc : (s.line n).state = .connected) :
    ∀ l, l = (usableStep n (classJudged n vc ic s)).line n →
      (¬(s.line n).isolates vc ic → l = { (s.line n).judged vc ic with masked := 0 }) ∧
      ((s.line n).isolates vc ic → l.count = 0 ∧ l.timer = (s.line n).timerAfterShort s.runs ∧
        KeptLine { (s.line n).judged vc ic with masked := 0, state := .isolated, cause := .protective } l) := by
  rintro l rfl
  rw [line_usableStep]
  refine ⟨fun h => by rw [line_classJudged s n vc ic h], fun h => ?_⟩
  obtain ⟨r, e, a, hl⟩ := line_classJudged_short s n vc ic hc h.1 h.2
  rw [hl]
  exact ⟨(debounce_changed h.1).2, rfl, _, _, _, _, _, _, rfl⟩

/-- A usable classification reading, as the statements say it. -/
theorem usable_completed (vc ic : Code) (hc : (s.line n).state = .connected) :
    ∀ t, t = afterResult m (placeLineIfCounting n (usableStep n (classJudged n vc ic s))) →
    ∀ l, l = (s.line n).judged vc ic →
      (¬(s.line n).isolates vc ic →
        ({ l with masked := 0 } : Line).keptIn (t.line n) ∧
          (t.line n).timer.restsAs (s.line n).timer s.runs = true) ∧
      ((s.line n).isolates vc ic →
        ({ l with masked := 0, state := .isolated, cause := .protective } : Line).keptIn (t.line n) ∧
          (t.line n).timer.restsAs ((s.line n).timerAfterShort s.runs) s.runs = true) ∧
      (s.runs = true → 0 < l.count → t.confirmFollows (.line n) = true) ∧
      (l.count = 0 → .line n ∉ s.chan.confirm ∨ (s.line n).isolates vc ic → t.confirmFollows (.line n) = false) := by
  rintro t rfl l rfl
  have runs : (usableStep n (classJudged n vc ic s)).runs = s.runs :=
    (onlyLine_closed n |>.trans (onlyLine_closed n |>.classJudged s vc ic) (onlyLine_closed n |>.usableStep _)).work.runs
  have chan := usableStep_chan n (classJudged n vc ic s)
  obtain ⟨stands, isolated⟩ := line_usableStep_classJudged vc ic hc _ rfl
  have placed : (placeLineIfCounting n (usableStep n (classJudged n vc ic s))).line n =
      (usableStep n (classJudged n vc ic s)).line n := line_placeLineIfCounting _ n n
  have placedRuns : (placeLineIfCounting n (usableStep n (classJudged n vc ic s))).runs = s.runs :=
    ((onlyLine_closed n).placeLineIfCounting _).work.runs.trans runs
  refine ⟨fun h => ?_, fun h => ?_, fun hr hcount => ?_, fun hcount hq => ?_⟩
  · refine afterResult_line placedRuns ?_ ?_
    · rw [placed, stands h]; exact .refl _
    · rw [placed, stands h]; rfl
  · obtain ⟨-, timer, kept⟩ := isolated h
    exact afterResult_line placedRuns (by rw [placed]; exact kept) (by rw [placed]; exact timer)
  · have h : ¬(s.line n).isolates vc ic := fun h => by
      have zero : ((s.line n).judged vc ic).count = 0 := (debounce_changed h.1).2
      omega
    exact confirmFollows_counting (runs.trans hr) (by rw [stands h]; exact hc) (by rw [stands h]; exact hcount)
  · by_cases h : (s.line n).isolates vc ic
    · refine confirmFollows_still (isolated h).1 ?_
      rw [chan, classJudged_isolates vc ic hc h]
      exact isolateProtectively_withdraws n _ _
    · refine confirmFollows_still (by rw [stands h]; exact hcount) ?_
      rw [chan, classJudged_chan vc ic h]
      exact hq.resolve_right h

/-- A masked classification reading, as the statements say it. -/
theorem masked_completed (hc : (s.line n).state = .connected) :
    ∀ t, t = afterResult m (placeLineIfCounting n (maskedStep n s)) →
      ({ s.line n with masked := min 255 ((s.line n).masked + 1) } : Line).keptIn (t.line n) ∧
      (t.line n).timer.restsAs (s.line n).timer s.runs = true ∧
      (s.runs = true → 0 < (s.line n).count → t.confirmFollows (.line n) = true) ∧
      ((s.line n).count = 0 → .line n ∉ s.chan.confirm → t.confirmFollows (.line n) = false) := by
  rintro t rfl
  have line := line_maskedStep s n
  have runs := (onlyLine_closed n |>.maskedStep s).work.runs
  have placed : (placeLineIfCounting n (maskedStep n s)).line n = (maskedStep n s).line n := line_placeLineIfCounting _ n n
  obtain ⟨kept, rests⟩ := afterResult_line (m := m) (u := placeLineIfCounting n (maskedStep n s)) (n := n)
    (((onlyLine_closed n).placeLineIfCounting _).work.runs.trans runs) (by rw [placed, line]; exact .refl _)
    (by rw [placed, line])
  refine ⟨kept, rests, fun hr hcount => ?_, fun hcount hq => ?_⟩
  · exact confirmFollows_counting (runs.trans hr) (by rw [line]; exact hc) (by rw [line]; exact hcount)
  · exact confirmFollows_still (by rw [line]; exact hcount) (by rw [maskedStep_chan]; exact hq)

/-- A stale classification result, as the statements say it. -/
theorem stale_completed : ∀ t, t = afterResult m (if 0 < (s.line n).count then placeConfirm (.line n) s else s) →
    (s.runs = true → (s.line n).state = .connected → 0 < (s.line n).count → t.confirmFollows (.line n) = true) ∧
    ((s.line n).count = 0 → .line n ∉ s.chan.confirm → t.confirmFollows (.line n) = false) := by
  rintro t rfl
  refine ⟨fun hr hc hcount => ?_, fun hcount hq => ?_⟩
  · rw [if_pos hcount]
    exact afterResult_confirm n m (by rw [line_placeConfirm]; exact hc) (mem_placeConfirm s _ hr)
  · rw [if_neg (by omega)]
    exact afterResult_unconfirmed n m hq

/-- A result that judges nothing leaves its line as it stands. -/
theorem line_resultTaken_unjudged (vc ic : Code) (masked : Bool) (ht : m.target = .line n)
    (hc : m.cls = .scan ∨ m.cls = .confirm) (h : m.epochCopy ≠ some (s.line n).epoch ∨ (s.line n).state ≠ .connected) :
    (resultTaken m (.line vc ic masked) s).line n = s.line n := by
  by_cases he : m.epochCopy = some (s.line n).epoch
  · have off := h.resolve_left (not_not_intro he)
    rw [resultTaken_classified vc ic masked ht hc he]
    simp [classificationReading, off]
  · rw [resultTaken_stale _ ht hc he]
    split
    · exact line_placeConfirm s n _
    · rfl

end Sys2Proof.Machine

open Sys2Proof.Machine in
/-- Settles O47: by the three kinds of result, the debounce step giving the record and the place in the confirm queue. -/
theorem lineReadingsFeedTheFilterAndTheDebounce : Obligations.LineReadingsFeedTheFilterAndTheDebounce := by
  intro n vc ic masked s m hf hreset ht hc
  have only : OnlyLine n s (resultTaken m (.line vc ic masked) s) :=
    resultTaken_line_closed (onlyLine_closed n) vc ic masked ht
  refine ⟨_, completion_taken hf hreset (by rw [ht]; rfl), afterResult_store m _ s, fun k hk => only.afterResult k hk,
    fun h => afterResult_self only.work.runs (line_resultTaken_unjudged vc ic masked ht hc h), fun he => ?_,
    fun he hs => ⟨fun hm => ?_, fun hm z hz zf hzf dev hdev d hd => ?_⟩⟩
  · rw [resultTaken_stale _ ht hc he]
    exact stale_completed _ rfl
  · rw [resultTaken_classified vc ic masked ht hc he, classificationReading_cases s n vc ic masked hs, hm]
    exact masked_completed hs _ rfl
  · rw [resultTaken_classified vc ic masked ht hc he, classificationReading_cases s n vc ic masked hs, hm,
      if_neg Bool.false_ne_true]
    obtain ⟨stands, isolated, counts, rests⟩ := usable_completed (m := m) vc ic hs _ rfl _ rfl
    have judged : d = ((s.line n).measured vc ic).stepClass := by subst hd hdev hzf hz; rfl
    have isolates : (s.line n).isolates vc ic ↔ d.changed = true ∧ d.confirmed = .short := by rw [judged]; rfl
    generalize afterResult m _ = t at *
    by_cases h : (s.line n).isolates vc ic
    · have changed := isolates.mp h
      obtain ⟨kept, timer⟩ := isolated h
      rw [if_pos changed, if_pos changed, if_pos changed]
      subst hz hzf hdev hd
      exact ⟨kept, timer, counts, fun h0 _ => rests h0 (.inr h)⟩
    · have standsStill := fun e => h (isolates.mpr e)
      obtain ⟨kept, timer⟩ := stands h
      rw [if_neg standsStill, if_neg standsStill, if_neg standsStill]
      subst hz hzf hdev hd
      rw [← hs]
      exact ⟨kept, timer, counts, fun h0 hq => rests h0 (.inl (hq.resolve_right standsStill))⟩
end

section
/-! PROOFS. Probe readings (O48): the decision of the probe, the place in the verify queue, the waiting RESTORE. -/

namespace Sys2Proof.Machine

variable {s t u : State} {n : LineNo} {m : Measurement}

/-! ### A probe result taken (R36, R37) -/

/-- A stale probe result puts its line back into the verify queue (R37). -/
theorem resultTaken_staleProbe (r : Reading) (ht : m.target = .line n) (hc : m.cls = .verify)
    (hp : (s.line n).state = .probing) (he : m.epochCopy ≠ some (s.line n).epoch) :
    resultTaken m r s = placeVerify id (.line n) s := by
  have stale := (isStale_line ht).mpr he
  simp [resultTaken, stale, placeStale, hc, ht, hp]

/-- Any other probe result is delivered (R36). -/
theorem resultTaken_probe (vc ic : Code) (masked : Bool) (ht : m.target = .line n) (hc : m.cls = .verify)
    (he : m.epochCopy = some (s.line n).epoch) :
    resultTaken m (.line vc ic masked) s = probeReading id n vc ic masked s := by
  have fresh : ¬s.isStale m = true := fun h => (isStale_line ht).mp h he
  simp [resultTaken, fresh, deliver, deliverLine, hc, ht]

/-- A PROBING line that is put back keeps its record and waits for its next probe reading (R25). -/
theorem placed_completed (hp : (u.line n).state = .probing) (hr : u.runs = s.runs) {l : Line} (hl : u.line n = l) :
    ∀ t, t = afterResult m (placeVerify id (.line n) u) → l.keptIn (t.line n) ∧
      (t.line n).timer.restsAs l.timer s.runs = true ∧ t.verifyFollows (.line n) = true := by
  rintro t rfl
  have line : (placeVerify id (.line n) u).line n = l := (line_placeVerify_id u n _).trans hl
  obtain ⟨kept, rests⟩ := afterResult_line (m := m) (n := n) (l := l)
    (((onlyLine_closed n).placeVerify u (.line n)).work.runs.trans hr) (by rw [line]; exact .refl _) (by rw [line])
  exact ⟨kept, rests, afterResult_verify n m (by rw [line, ← hl]; exact hp) (mem_placeVerify_id u _)⟩

/-! ### The decision of the probe (R12, R13, R14) -/

section Decision
variable (vc ic : Code) (s : State) (n : LineNo)

/-- A usable probe reading taken, and counted as a pass (R12). -/
def probePassed (n : LineNo) (vc ic : Code) (s : State) : State :=
  (probeTaken n vc ic s).setLine n { (s.line n).probed vc ic with passCount := (s.line n).passCount + 1 }

/-- The three ends of a usable probe reading (R12 to R14). -/
theorem probeReading_usable (hp : (s.line n).state = .probing) :
    (rawImpedance vc ic (s.line n).cfg.gain ≤ (s.line n).cfg.shortFloor →
      probeReading id n vc ic false s = probeFails n (probeTaken n vc ic s)) ∧
    ((s.line n).cfg.shortFloor < rawImpedance vc ic (s.line n).cfg.gain →
      (s.line n).passCount + 1 < (s.line n).cfg.clearCount →
      probeReading id n vc ic false s = placeVerify id (.line n) (probePassed n vc ic s)) ∧
    ((s.line n).cfg.shortFloor < rawImpedance vc ic (s.line n).cfg.gain →
      (s.line n).cfg.clearCount ≤ (s.line n).passCount + 1 →
      probeReading id n vc ic false s = probeSucceeds n (probePassed n vc ic s)) := by
  rw [probeReading_cases s n vc ic false hp, if_neg Bool.false_ne_true]
  dsimp only
  rw [line_probeTaken]
  refine ⟨fun h => if_pos h, fun h hc => ?_, fun h hc => ?_⟩
  · rw [if_neg (Nat.not_le.mpr h), if_neg (Nat.not_le.mpr hc)]; rfl
  · rw [if_neg (Nat.not_le.mpr h), if_pos hc]; rfl

theorem probeTaken_runs : (probeTaken n vc ic s).runs = s.runs := ((onlyLine_closed n).probeTaken s vc ic).work.runs

theorem probePassed_runs : (probePassed n vc ic s).runs = s.runs := probeTaken_runs vc ic s n

theorem line_probePassed : (probePassed n vc ic s).line n =
    { (s.line n).probed vc ic with passCount := (s.line n).passCount + 1 } := line_setLine_same _ n _

/-- A probe that has failed, as the statements say it (R14). -/
theorem failed_completed : ∀ t, t = afterResult m (probeFails n (probeTaken n vc ic s)) →
    ∀ l, l = (s.line n).probed vc ic →
      ({ l with
        state := if l.cfg.retryLimit ≤ l.retryCount + 1 then .locked else .isolated
        cause := if l.cfg.retryLimit ≤ l.retryCount + 1 then .lockout else .protective
        retryCount := l.retryCount + 1, passCount := 0, confirmed := .short, candidate := none, count := 0
        waiting := none } : Line).keptIn (t.line n) ∧
      (t.line n).timer.restsAs (if l.cfg.retryLimit ≤ l.retryCount + 1 then .idle
        else ({ l with retryCount := l.retryCount + 1 } : Line).timerAfterShort s.runs) s.runs = true := by
  rintro t rfl l hl
  obtain ⟨r, e, a, line⟩ := line_probeFails (probeTaken n vc ic s) n
  rw [line_probeTaken, ← hl, probeTaken_runs, Line.retried] at line
  have runs := ((onlyLine_closed n).probeFails (probeTaken n vc ic s)).work.runs.trans (probeTaken_runs vc ic s n)
  by_cases h : l.cfg.retryLimit ≤ l.retryCount + 1
  · rw [if_pos (show l.lost.cfg.retryLimit ≤ l.lost.retryCount from h)] at line
    rw [if_pos h, if_pos h, if_pos h]
    exact afterResult_line runs (by rw [line]; exact ⟨_, _, _, _, _, _, rfl⟩) (by rw [line])
  · rw [if_neg (show ¬l.lost.cfg.retryLimit ≤ l.lost.retryCount from h)] at line
    rw [if_neg h, if_neg h, if_neg h]
    exact afterResult_line runs (by rw [line]; exact ⟨_, _, _, _, _, _, rfl⟩) (by rw [line]; rfl)

/-- A probe that has succeeded, as the statements say it (R13). -/
theorem succeeded_completed : ∀ t, t = afterResult m (probeSucceeds n (probePassed n vc ic s)) →
    ∀ l, l = (s.line n).probed vc ic →
      ({ l with
        state := .connected, cause := .noCause, retryCount := 0, passCount := 0, confirmed := .normal
        candidate := none, count := 0, waiting := none } : Line).keptIn (t.line n) ∧
      (t.line n).timer.restsAs (s.line n).timer s.runs = true := by
  rintro t rfl l rfl
  obtain ⟨r, e, a, line⟩ := line_probeSucceeds (probePassed n vc ic s) n
  rw [line_probePassed] at line
  have runs := ((onlyLine_closed n).probeSucceeds (probePassed n vc ic s)).work.runs.trans (probePassed_runs vc ic s n)
  exact afterResult_line runs (by rw [line]; exact ⟨_, _, _, _, _, _, rfl⟩) (by rw [line]; rfl)

end Decision

/-! ### The completion of the waiting RESTORE (R16) -/

/-- An ACTIVE part stays ACTIVE, and its ports differ in their latches alone. -/
def ActiveKept (s t : State) : Prop := s.mc.mode = .active → t.mc.mode = .active ∧ SameButLatch s.ports t.ports

/-- In ACTIVE the search touches no port but for its latch (R140). -/
theorem activeKept_search : SearchClosed ActiveKept where
  refl _ h := ⟨h, .refl _⟩
  trans h g hs := ⟨(g (h hs).1).1, (h hs).2.trans (g (h hs).1).2⟩
  chan _ _ h := ⟨h, .refl _⟩
  signal s h := by
    refine ⟨by rw [signalAll_exact]; exact h, fun q => ?_⟩
    have port := port_signalAll s q
    simp only [ports_get, port]
  settles s c hs h := absurd (hs.symm.trans h) (by decide)
  active s hs h := absurd (hs.symm.trans h) (by decide)
  standby s hs _ _ h := absurd (hs.symm.trans h) (by decide)

/-- A move that the result has not ended is not reported. -/
theorem afterResult_idle (h : u.move ≠ some []) : afterResult m u = channelFree (slotCompleted m u) := by
  rw [afterResult, reportMove_idle u id h]

theorem afterResult_ports (ha : u.mc.mode = .active) (h : u.move ≠ some []) :
    SameButLatch u.ports (afterResult m u).ports := by
  rw [afterResult_idle h]
  exact ((activeKept_search.trans (activeKept_search.slotCompleted m u) (activeKept_search.channelFree _)) ha).2

/-- The move waits, with line `n`, for another line. -/
def OutlastsKept (n : LineNo) (s t : State) : Prop := s.moveOutlasts n = true → t.moveOutlasts n = true

/-- Nothing that the line supervisor does on line `n` ends a move that outlasts it (R7). -/
theorem outlastsKept_closed (n : LineNo) : LineClosed n (OutlastsKept n) where
  refl _ h := h
  trans h g hs := g (h hs)
  table h hs := by rw [State.moveOutlasts, h.move]; exact hs
  line _ _ h := h
  queues _ _ _ h := h
  order s pos h := by
    rw [State.moveOutlasts, move_orderSelector]
    obtain e | e := moveAfter_cases s n pos <;> rw [e]
    · exact h
    · rw [State.moveOutlasts] at h
      cases hm : s.move with
      | none => rfl
      | some l => rw [hm] at h; simpa using h
  ended s o h := by
    cases hj : s.chan.job with
    | none => rw [endLearn_none s o hj]; exact h
    | some j => rw [endLearn_eq s o hj]; exact h

theorem OutlastsKept.move (h : OutlastsKept n s t) (hm : s.moveOutlasts n = true) : t.move ≠ some [] :=
  (move_of_outlasts t n (h hm)).1

section Ports
variable (n)

theorem usableStep_latch (s : State) : SameButLatch s.ports (usableStep n s).ports := by
  unfold usableStep; split
  · exact clear_latch _ _ s
  · exact .refl _

theorem clearClass_latch (c : LineClass) (s : State) : SameButLatch s.ports (clearClass n c s).ports := by
  unfold clearClass; split
  · exact clear_latch _ _ s
  · exact .refl _

theorem raiseClass_latch (c : LineClass) (s : State) : SameButLatch s.ports (raiseClass n c s).ports := by
  unfold raiseClass; split
  · split
    · exact .refl _
    · exact raise_latch _ _ s
  · exact .refl _

theorem failedClass_latch (s : State) : SameButLatch s.ports (failedClass n s).ports := by
  unfold failedClass; split
  · exact .refl _
  · exact (clearClass_latch n _ (s.setLine n { s.line n with confirmed := .short })).trans (raiseClass_latch n _ _)

theorem probeTaken_learnsOn (vc ic : Code) (s : State) : (probeTaken n vc ic s).learnsOn n = s.learnsOn n := by
  rw [State.learnsOn, probeTaken, usableStep_chan]
  rfl

theorem endWaiting_ports (o : CompletionOutcome) (s : State) :
    (endWaiting n o s).ports = handedOn (s.line n).waiting o s.ports := by rw [endWaiting_eq]

/-- A failed probe of a line with no learn job hands its waiting RESTORE on as RESTORE_FAILED (R14, R16). -/
theorem probeFails_ports (s : State) (h : s.learnsOn n = false) :
    SameButLatch (handedOn (s.line n).waiting .restoreFailed s.ports) (probeFails n s).ports := by
  have lost : SameButLatch (handedOn (s.line n).waiting .restoreFailed s.ports) (probeLost n s).ports := by
    unfold probeLost
    dsimp only
    rw [endWaiting_ports]
    have waiting : ((dropDebounce n (failedClass n ((endProbe n .protective s).setLine n
        { (endProbe n .protective s).line n with
          retryCount := ((endProbe n .protective s).line n).retryCount + 1 }))).line n).waiting = (s.line n).waiting := by
      obtain ⟨r, e, a, line⟩ := line_endProbe s n .protective
      simp [dropDebounce, line]
    rw [waiting]
    refine SameButLatch.handedOn ?_ _ _
    have quiet := endProbe_quiet s n .protective h
    refine SameButLatch.trans ?_ (failedClass_latch n ((endProbe n .protective s).setLine n _))
    rw [quiet]
    exact .refl _
  rw [probeFails_eq]
  generalize probeLost n s = t at lost
  dsimp only
  split
  · exact lost
  · rw [startRetry_eq]
    exact lost

/-- A probe of a line with no learn job that succeeds hands its waiting RESTORE on as RESTORED (R13, R16). -/
theorem probeSucceeds_ports (s : State) (h : s.learnsOn n = false) :
    SameButLatch (handedOn (s.line n).waiting .restored s.ports) (probeSucceeds n s).ports := by
  unfold probeSucceeds
  dsimp only
  rw [endWaiting_ports]
  obtain ⟨r, e, a, line⟩ := line_orderSelector_same s n (.bus (s.line n).current)
  simp only [dropDebounce, line_setLine_same, line_clearClass, line]
  refine SameButLatch.handedOn ?_ _ _
  refine SameButLatch.trans ?_ (clearClass_latch n _ _)
  rw [orderSelector_quiet s n _ h]
  exact .refl _

end Ports

/-- A completion of the session of its port that the result has handed on stands in the port's list, also behind the search. -/
theorem completion_handedOn {w : Requester} {o : CompletionOutcome} {x : PerPort PortState} (hx : SameButLatch s.ports x)
    (hu : SameButLatch (handedOn (some w) o x) u.ports) (hs : w.session = (s.port w.port).session)
    (hi : 0 < (s.port w.port).inFlight) (ha : u.mc.mode = .active) (hm : u.move ≠ some []) :
    ∀ t, t = afterResult m u → (t.port w.port).completions = (s.port w.port).completions ++ [⟨w.tag, w.request, o⟩] ∧
      (t.port w.port).inFlight = (s.port w.port).inFlight - 1 := by
  rintro t rfl
  have port := (((hx.handedOn (some w) o).trans hu).trans (afterResult_ports (m := m) ha hm)) w.port
  rw [get_handedOn_same o s.ports (by simpa only [ports_get] using hs) (by simpa only [ports_get] using hi)] at port
  simp only [ports_get] at port
  rw [port]
  exact ⟨rfl, rfl⟩

/-- The end of the waiting RESTORE with the probe, as the statements say it (R16). -/
theorem restore_completed (vc ic : Code) {w : Requester} (hw : (s.line n).waiting = some w)
    (hs : w.session = (s.port w.port).session) (hi : 0 < (s.port w.port).inFlight) (ha : s.mc.mode = .active)
    (hm : s.moveOutlasts n = true) (hl : s.learnsOn n = false) :
    (∀ t, t = afterResult m (probeSucceeds n (probePassed n vc ic s)) →
      (t.port w.port).completions = (s.port w.port).completions ++ [⟨w.tag, w.request, .restored⟩] ∧
      (t.port w.port).inFlight = (s.port w.port).inFlight - 1) ∧
    (∀ t, t = afterResult m (probeFails n (probeTaken n vc ic s)) →
      (t.port w.port).completions = (s.port w.port).completions ++ [⟨w.tag, w.request, .restoreFailed⟩] ∧
      (t.port w.port).inFlight = (s.port w.port).inFlight - 1) := by
  have taken : SameButLatch s.ports (probeTaken n vc ic s).ports := usableStep_latch n (s.setLine n _)
  have quiet := (probeTaken_learnsOn n vc ic s).trans hl
  have moves := outlastsKept_closed n
  have only := onlyLine_closed n
  have passed : OnlyLine n s (probePassed n vc ic s) := only.trans (only.probeTaken s vc ic) (only.line _ _)
  have passedMoves : OutlastsKept n s (probePassed n vc ic s) := moves.trans (moves.probeTaken s vc ic) (moves.line _ _)
  constructor
  · have ports := probeSucceeds_ports n (probePassed n vc ic s) quiet
    rw [line_probePassed] at ports
    refine completion_handedOn (x := (probePassed n vc ic s).ports) taken ?_ hs hi ?_ ?_
    · rw [← hw]; exact ports
    · rw [(only.trans passed (only.probeSucceeds _)).work.mc]
      exact ha
    · exact (moves.trans passedMoves (moves.probeSucceeds _)).move hm
  · have ports := probeFails_ports n (probeTaken n vc ic s) quiet
    rw [line_probeTaken] at ports
    refine completion_handedOn taken ?_ hs hi ?_ ?_
    · rw [← hw]; exact ports
    · rw [(only.trans (only.probeTaken s vc ic) (only.probeFails _)).work.mc]
      exact ha
    · exact (moves.trans (moves.probeTaken s vc ic) (moves.probeFails _)).move hm

end Sys2Proof.Machine
end

section
/-! PROOFS. What readings on a line send to the fault table (R50, R51, R53, R66, R67), and O48. -/

namespace Sys2Proof.Machine

variable {s t u : State} {n : LineNo} {m : Measurement}

/-! ### The table behind a completion (R30, R51) -/

/-- The table stands where SETTLING is not left. -/
def TableStands (s t : State) : Prop :=
  (t.mc.mode = .settling → s.mc.mode = .settling) ∧
    (s.mc.mode ≠ .settling ∨ t.mc.mode = .settling → t.faults = s.faults)

theorem TableStands.of_mode (hm : t.mc.mode = s.mc.mode) (hf : t.faults = s.faults) : TableStands s t :=
  ⟨fun h => hm ▸ h, fun _ => hf⟩

/-- The search reaches the table by the held raises alone, which it sends at the move to ACTIVE (R51, R67, R151). -/
theorem tableStands_search : SearchClosed TableStands where
  refl _ := .of_mode rfl rfl
  trans h g := by
    refine ⟨fun hu => h.1 (g.1 hu), fun hs => ?_⟩
    obtain hs | hu := hs
    · have ht := fun e => hs (h.1 e)
      exact (g.2 (.inl ht)).trans (h.2 (.inl hs))
    · exact (g.2 (.inr hu)).trans (h.2 (.inr (g.1 hu)))
  chan _ _ := .of_mode rfl rfl
  signal s := by
    rw [signalAll_exact]
    exact .of_mode rfl rfl
  settles _ _ _ := .of_mode rfl rfl
  active s h := by
    have mode : (enterActive s).mc.mode = .active := by
      rw [enterActive_eq, grantAttempt_id_mc, (raiseAll_same _ _).mc]
    rw [TableStands, mode]
    exact ⟨nofun, fun e => by rw [h] at e; simp at e⟩
  standby s h _ _ := by
    have same := signalAll_same (({ s with mc.mode := .standby } : State).mapLines fun l => { l with timer := l.timer.freeze })
    refine ⟨fun e => ?_, fun _ => same.faults⟩
    have mode : (enterStandby s).mc.mode = .standby := congrArg ModeControl.mode same.mc
    rw [mode] at e
    cases e

/-- A result that ends no move leaves the table as its delivery does, where SETTLING is not left behind it. -/
theorem afterResult_faults (hm : u.move ≠ some []) (hmode : u.mc.mode = s.mc.mode)
    (h : s.mc.mode ≠ .settling ∨ (afterResult m u).mc.mode = .settling) : (afterResult m u).faults = u.faults := by
  rw [← hmode] at h
  rw [afterResult_idle hm] at h ⊢
  exact (tableStands_search.trans (tableStands_search.slotCompleted m u) (tableStands_search.channelFree _)).2 h

/-- A stale result reaches no table (R37). -/
theorem placeStale_faults (m : Measurement) (s : State) : (placeStale m s).faults = s.faults := by
  have conf : ∀ x, (placeConfirm x s).faults = s.faults := fun x => by rw [placeConfirm_eq]
  have ver : ∀ x, (placeVerify id x s).faults = s.faults := fun x => by rw [placeVerify_id]
  have amp : ∀ k, (placeAmpIfCounting k s).faults = s.faults := fun k => by
    unfold placeAmpIfCounting; split
    · exact conf _
    · rfl
  unfold placeStale
  split
  · split
    · exact conf _
    · rfl
  · split
    · exact conf _
    · rfl
  · exact amp _
  · exact amp _
  · split
    · exact ver _
    · rfl
  · split
    · exact ver _
    · rfl
  · rfl

/-! ### What the senders of a line see -/

/-- Two states that the raises and clears of a line cannot tell apart: what the table sees, and mode control (R51). -/
structure SentAlike (s t : State) : Prop where
  table : SameTable s t
  mc : t.mc = s.mc

theorem SentAlike.refl (s : State) : SentAlike s s := ⟨.refl s, rfl⟩

theorem SentAlike.trans (h : SentAlike s t) (g : SentAlike t u) : SentAlike s u := ⟨h.table.trans g.table, g.mc.trans h.mc⟩

theorem SentAlike.symm (h : SentAlike s t) : SentAlike t s := ⟨h.table.symm, h.mc.symm⟩

theorem SentAlike.raise (h : SentAlike s t) (k : FaultKey) (snap : Option Snapshot) :
    SentAlike (raise k snap s) (raise k snap t) :=
  ⟨raise_table k snap h.table, by rw [(raise_same t k snap).mc, (raise_same s k snap).mc, h.mc]⟩

theorem SentAlike.clear (h : SentAlike s t) (k : FaultKey) (snap : Option Snapshot) :
    SentAlike (clear k snap s) (clear k snap t) :=
  ⟨clear_table k snap h.table, by rw [(clear_same t k snap).mc, (clear_same s k snap).mc, h.mc]⟩

theorem setLine_alike (s : State) (n : LineNo) (l : Line) : SentAlike s (s.setLine n l) := ⟨⟨rfl, rfl, rfl⟩, rfl⟩

theorem handedOn_listening (r : Option Requester) (o : CompletionOutcome) (x : PerPort PortState) (q : Port) :
    ((handedOn r o x).get q).listening = (x.get q).listening := by
  cases r with
  | none => rfl
  | some r =>
    unfold handedOn; dsimp only
    split
    · by_cases hq : q = r.port
      · subst hq; simp
      · rw [PerPort.get_set_ne _ _ _ _ hq]
    · rfl

theorem endWaiting_alike (s : State) (n : LineNo) (o : CompletionOutcome) : SentAlike s (endWaiting n o s) := by
  rw [endWaiting_eq]
  refine ⟨⟨rfl, listeners_of_port fun q => ?_, rfl⟩, rfl⟩
  exact handedOn_listening _ _ s.ports q

theorem orderSelector_alike (s : State) (n : LineNo) (pos : Selector) : SentAlike s (orderSelector n pos s) := by
  refine ⟨⟨(orderSelector_frame s n pos).1, listeners_of_port fun q => ?_, (orderSelector_chanKept s n pos).number⟩,
    (orderSelector_work s n pos).mc⟩
  by_cases hp : (s.line n).selector = pos
  · rw [orderSelector_held s n hp]
  · rw [orderSelector_eq s n hp]
    change ((if s.learnsOn n then handedOn _ _ s.ports else s.ports).get q).listening = (s.ports.get q).listening
    split
    · exact handedOn_listening _ _ s.ports q
    · rfl

theorem startRetry_alike (s : State) (n : LineNo) : SentAlike s (startRetry n s) := by
  rw [startRetry_eq]
  exact setLine_alike s n _

theorem placeLineIfCounting_alike (s : State) (n : LineNo) : SentAlike s (placeLineIfCounting n s) := by
  unfold placeLineIfCounting; split
  · rw [placeConfirm_eq]
    exact ⟨⟨rfl, rfl, rfl⟩, rfl⟩
  · exact .refl s

theorem placeVerify_alike (s : State) (x : Subject) : SentAlike s (placeVerify id x s) := by
  rw [placeVerify_id]
  exact ⟨⟨rfl, rfl, rfl⟩, rfl⟩

/-! ### The raises and clears of a class change and of BLIND (R50, R51, R53) -/

theorem clearClass_eq (n : LineNo) (c : LineClass) (s : State) :
    clearClass n c s = (classFaults n c).foldl (fun u k => clear k (s.line n).snapshot u) s := by cases c <;> rfl

theorem raiseClass_eq (n : LineNo) (c : LineClass) (s : State) : raiseClass n c s =
    if s.mc.mode = .settling ∧ c ≠ .short then s
    else raiseAll ((classFaults n c).map fun k => (k, (s.line n).snapshot)) s := by
  cases c <;> by_cases h : s.mc.mode = .settling <;> simp [raiseClass, classKey, State.holdsClass, classFaults, raiseAll, h]

/-- The change that a line sends, with the snapshot as it is (R50). -/
theorem sendClassChange_eq (n : LineNo) (old new : LineClass) (s : State) :
    sendClassChange n old new s = classChange n old new (s.line n).snapshot s := by
  unfold sendClassChange classChange
  rw [raiseClass_eq, line_clearClass, (clearClass_same s n old).mc, clearClass_eq]

/-- A change to NORMAL clears the old class and raises nothing (R50). -/
theorem clearClass_change (n : LineNo) (old : LineClass) (s : State) :
    clearClass n old s = classChange n old .normal (s.line n).snapshot s := by
  rw [clearClass_eq]
  simp [classChange, classFaults, raiseAll]

theorem foldClears_alike (snap : Option Snapshot) (keys : List FaultKey) (h : SentAlike s t) :
    SentAlike (keys.foldl (fun u k => clear k snap u) s) (keys.foldl (fun u k => clear k snap u) t) := by
  induction keys generalizing s t with
  | nil => exact h
  | cons k keys ih => exact ih (h.clear k snap)

theorem raiseAll_alike (sent : List (FaultKey × Option Snapshot)) (h : SentAlike s t) :
    SentAlike (raiseAll sent s) (raiseAll sent t) := by
  unfold raiseAll
  induction sent generalizing s t with
  | nil => exact h
  | cons x sent ih => exact ih (h.raise x.1 x.2)

theorem classChange_alike (n : LineNo) (old new : LineClass) (snap : Option Snapshot) (h : SentAlike s t) :
    SentAlike (classChange n old new snap s) (classChange n old new snap t) := by
  have cleared := foldClears_alike snap (classFaults n old) h
  unfold classChange
  rw [h.mc]
  dsimp only
  split
  · exact cleared
  · exact raiseAll_alike _ cleared

theorem blindAfter_alike (b : Bool) (h : SentAlike s t) (hm : (t.line n).masked = (s.line n).masked) :
    SentAlike (blindAfter n b s) (blindAfter n b t) := by
  unfold blindAfter
  rw [hm, h.mc]
  dsimp only
  split
  · split
    · exact h.raise _ _
    · exact h
  · split
    · exact h.clear _ _
    · exact h

theorem maskedStep_sends (n : LineNo) (s : State) : SentAlike (blindAfter n true s) (maskedStep n s) := by
  unfold maskedStep
  have written := setLine_alike s n { s.line n with masked := min 255 ((s.line n).masked + 1) }
  have line := line_setLine_same s n { s.line n with masked := min 255 ((s.line n).masked + 1) }
  generalize s.setLine n _ = t at written line
  unfold raiseBlind blindAfter
  rw [line, written.mc, if_pos rfl]
  dsimp only
  split
  · exact written.raise _ _
  · exact written

theorem usableStep_sends (n : LineNo) (s : State) : SentAlike (blindAfter n false s) (usableStep n s) := by
  unfold usableStep blindAfter
  rw [if_neg Bool.false_ne_true]
  dsimp only
  split
  · exact setLine_alike _ n _
  · exact .refl s

/-! ### What each kind of reading sends (R8, R13, R14, R50) -/

theorem isolateProtectively_sends (n : LineNo) (old : LineClass) (s : State) :
    SentAlike (classChange n old .short (s.line n).snapshot s) (isolateProtectively n old s) := by
  obtain ⟨r, e, a, line⟩ := line_orderSelector_same s n .off
  unfold isolateProtectively
  dsimp only
  refine SentAlike.trans ?_ (startRetry_alike _ n)
  rw [sendClassChange_eq]
  have seen : (Machine.withdrawConfirm (.line n) ((orderSelector n .off s).setLine n
      { (orderSelector n .off s).line n with state := .isolated, cause := .protective })).line n =
      { (orderSelector n .off s).line n with state := .isolated, cause := .protective } := by simp
  rw [seen, line]
  refine classChange_alike n old .short _ ?_
  exact (orderSelector_alike s n .off).trans ⟨⟨rfl, rfl, rfl⟩, rfl⟩

/-- A confirmed change of a CONNECTED line, SHORT or any other, sends the change (R8, R50). -/
theorem classJudged_sends (vc ic : Code) (hc : (s.line n).state = .connected) :
    SentAlike (if (s.line n).confirmsClass vc ic then classChange n (s.line n).confirmed ((s.line n).judged vc ic).confirmed
      ((s.line n).judged vc ic).snapshot s else s) (classJudged n vc ic s) := by
  have written := setLine_alike s n ((s.line n).judged vc ic)
  unfold classJudged
  dsimp only
  split
  · by_cases hs : ((s.line n).judged vc ic).confirmed = .short
    · have state : ((s.line n).judged vc ic).state = .connected := hc
      simp only [confirmedChange, line_setLine_same, hs, state, and_self, ↓reduceIte]
      have sent := isolateProtectively_sends n (s.line n).confirmed (s.setLine n ((s.line n).judged vc ic))
      rw [line_setLine_same] at sent
      exact (classChange_alike n _ .short _ written).trans sent
    · simp only [confirmedChange, line_setLine_same, hs, false_and, ↓reduceIte]
      rw [sendClassChange_eq, line_setLine_same]
      exact classChange_alike n _ _ _ written
  · exact written

theorem classJudged_masked (vc ic : Code) (hc : (s.line n).state = .connected) :
    ((classJudged n vc ic s).line n).masked = (s.line n).masked := by
  by_cases h : (s.line n).isolates vc ic
  · obtain ⟨r, e, a, line⟩ := line_classJudged_short s n vc ic hc h.1 h.2
    rw [line]
    rfl
  · rw [line_classJudged s n vc ic h]
    rfl

theorem classChange_line (old new : LineClass) (snap : Option Snapshot) (s : State) (k : LineNo) :
    (classChange n old new snap s).line k = s.line k := by
  have cleared := line_congr (foldl_sameButTable (fun u k => clear k snap u) (fun u k => clear_same u k snap)
    (classFaults n old) s).lines k
  unfold classChange
  dsimp only
  split
  · exact cleared
  · exact (line_congr (raiseAll_same _ _).lines k).trans cleared

/-- A usable classification reading sends the change it confirms, and clears BLIND behind it (R50, R53). -/
theorem usable_sends (vc ic : Code) (hc : (s.line n).state = .connected) :
    SentAlike (blindAfter n false (if (s.line n).confirmsClass vc ic then classChange n (s.line n).confirmed
      ((s.line n).judged vc ic).confirmed ((s.line n).judged vc ic).snapshot s else s))
      (usableStep n (classJudged n vc ic s)) := by
  refine SentAlike.trans ?_ (usableStep_sends n _)
  refine blindAfter_alike false (classJudged_sends vc ic hc) ?_
  rw [classJudged_masked vc ic hc]
  split
  · rw [classChange_line]
  · rfl

theorem probeTaken_sends (n : LineNo) (vc ic : Code) (s : State) :
    SentAlike (blindAfter n false s) (probeTaken n vc ic s) := by
  unfold probeTaken
  refine SentAlike.trans ?_ (usableStep_sends n _)
  exact blindAfter_alike false (setLine_alike s n _) (by rw [line_setLine_same]; rfl)

/-- A probe that succeeds sends the change to NORMAL (R13). -/
theorem probeSucceeds_sends (n : LineNo) (s : State) :
    SentAlike (classChange n (s.line n).confirmed .normal (s.line n).snapshot s) (probeSucceeds n s) := by
  obtain ⟨r, e, a, line⟩ := line_orderSelector_same s n (.bus (s.line n).current)
  unfold probeSucceeds
  dsimp only
  refine SentAlike.trans ?_ (endWaiting_alike _ n _)
  refine SentAlike.trans ?_ (setLine_alike _ n _)
  rw [clearClass_change, line_setLine_same, line]
  refine classChange_alike n _ .normal _ ?_
  exact (orderSelector_alike s n _).trans (setLine_alike _ n _)

/-- A probe that fails sends the change to SHORT, where the line has not been SHORT before (R14). -/
theorem failedClass_sends (n : LineNo) (s : State) :
    SentAlike (if (s.line n).confirmed = .short then s
      else classChange n (s.line n).confirmed .short (s.line n).snapshot s) (failedClass n s) := by
  unfold failedClass; split
  · exact .refl s
  · rw [sendClassChange_eq, line_setLine_same]
    exact classChange_alike n _ .short _ (setLine_alike s n _)

theorem probeFails_sends (n : LineNo) (s : State) :
    SentAlike (if (s.line n).confirmed = .short then s
      else classChange n (s.line n).confirmed .short (s.line n).snapshot s) (probeFails n s) := by
  obtain ⟨r, e, a, line⟩ := line_endProbe s n .protective
  have counted : SentAlike s ((endProbe n .protective s).setLine n
      { (endProbe n .protective s).line n with retryCount := ((endProbe n .protective s).line n).retryCount + 1 }) :=
    ((orderSelector_alike s n .off).trans (setLine_alike _ n _)).trans (setLine_alike _ n _)
  have lost : SentAlike (if (s.line n).confirmed = .short then s
      else classChange n (s.line n).confirmed .short (s.line n).snapshot s) (probeLost n s) := by
    unfold probeLost
    dsimp only
    refine SentAlike.trans ?_ (endWaiting_alike _ n _)
    refine SentAlike.trans ?_ (setLine_alike _ n _)
    refine SentAlike.trans ?_ (failedClass_sends n _)
    rw [line_setLine_same, line]
    dsimp only
    rw [line] at counted
    split
    · exact counted
    · exact classChange_alike n _ .short _ counted
  rw [probeFails_eq]
  refine lost.trans ?_
  generalize probeLost n s = t
  dsimp only
  split
  · exact setLine_alike t n _
  · exact startRetry_alike t n

/-! ### What an EARTH result sends (R63, R66, R67) -/

/-- An EARTH result that is judged sends what it confirms, a leak held in SETTLING. -/
theorem earthReading_sends (lc : Code) (trip : Bool) (hs : (s.line n).state ≠ .disabled)
    (hc : (s.line n).cfg.earthCheck = true) :
    ∀ l, l = (s.line n).earthed lc trip →
      ((s.line n).confirmsEarth lc trip = false → SentAlike s (earthReading n lc trip s)) ∧
      ((s.line n).confirmsEarth lc trip = true → l.earth = .leak →
        SentAlike (if s.mc.mode = .settling then s else raise (.earthLeak n) l.earthSnapshot s) (earthReading n lc trip s)) ∧
      ((s.line n).confirmsEarth lc trip = true → l.earth = .normal →
        SentAlike (clear (.earthLeak n) l.earthSnapshot s) (earthReading n lc trip s)) := by
  intro l hl
  rw [earthReading_cases, if_neg (by simp [hs, hc]), ← hl]
  have written := setLine_alike s n l
  have line := line_setLine_same s n l
  generalize s.setLine n l = t at written line
  dsimp only
  refine ⟨fun h => ?_, fun h he => ?_, fun h he => ?_⟩
  · rw [h]
    exact written
  · rw [if_pos h]
    unfold sendEarth
    rw [line, he, written.mc]
    dsimp only
    split
    · exact written
    · exact written.raise _ _
  · rw [if_pos h]
    unfold sendEarth
    rw [line, he]
    exact written.clear _ _

theorem resultTaken_earth (lc : Code) (trip : Bool) (ht : m.target = .earth n)
    (he : m.epochCopy = some (s.line n).epoch) : resultTaken m (.earth lc trip) s = earthReading n lc trip s := by
  have fresh : ¬s.isStale m = true := fun h => (isStale_earth ht).mp h he
  simp [resultTaken, fresh, deliver, ht]

/-- A stale EARTH result is dropped (R37). -/
theorem resultTaken_staleEarth (r : Reading) (ht : m.target = .earth n) (he : m.epochCopy ≠ some (s.line n).epoch) :
    resultTaken m r s = s := by
  have stale := (isStale_earth ht).mpr he
  cases hc : m.cls <;> simp [resultTaken, stale, placeStale, hc, ht]

/-- A stale result sends the table nothing (R37). -/
theorem resultTaken_staleFaults (r : Reading) (ht : m.target = .line n) (he : m.epochCopy ≠ some (s.line n).epoch) :
    (resultTaken m r s).faults = s.faults := by
  have stale := (isStale_line ht).mpr he
  rw [resultTaken, if_pos stale]
  exact placeStale_faults m s

/-! ### O48, part by part -/

/-- What is done on line `n` while a result is taken: mode control and a move that outlasts the line stand. -/
structure ReadingKept (n : LineNo) (s t : State) : Prop where
  mc : t.mc = s.mc
  outlasts : OutlastsKept n s t

theorem readingKept_closed (n : LineNo) : LineClosed n (ReadingKept n) where
  refl s := ⟨rfl, (outlastsKept_closed n).refl s⟩
  trans h g := ⟨g.mc.trans h.mc, (outlastsKept_closed n).trans h.outlasts g.outlasts⟩
  table h := ⟨h.mc, (outlastsKept_closed n).table h⟩
  line s l := ⟨rfl, (outlastsKept_closed n).line s l⟩
  queues s v q := ⟨rfl, (outlastsKept_closed n).queues s v q⟩
  order s pos := ⟨(orderSelector_work s n pos).mc, (outlastsKept_closed n).order s pos⟩
  ended s o := ⟨(endLearn_work s o).mc, (outlastsKept_closed n).ended s o⟩

/-- What a result sends, where it ends no move, is what the table shows behind its completion. -/
theorem SentAlike.shown {x : State} (h : SentAlike x u) (g : ReadingKept n s u) (hm : s.moveOutlasts n = true)
    (hmode : s.mc.mode ≠ .settling ∨ (afterResult m u).mc.mode = .settling) : (afterResult m u).faults = x.faults :=
  (afterResult_faults (g.outlasts.move hm) (by rw [g.mc]) hmode).trans h.table.faults

end Sys2Proof.Machine

open Sys2Proof.Machine in
/-- Settles O48: the probe by its three ends, and what each kind of reading sends, through the relation that the fault table
cannot see. -/
theorem probesAreDecidedAndReadingsSendTheirFaults : Obligations.ProbesAreDecidedAndReadingsSendTheirFaults := by
  refine ⟨fun n vc ic masked s m hf hreset ht hc hp => ?_, fun n vc ic masked s m hf hreset ht hm => ?_,
    fun n lc trip s m hf hreset ht hm => ?_⟩
  · have only : OnlyLine n s (resultTaken m (.line vc ic masked) s) :=
      resultTaken_line_closed (onlyLine_closed n) vc ic masked ht
    refine ⟨_, completion_taken hf hreset (by rw [ht]; rfl), afterResult_store m _ s, fun k hk => only.afterResult k hk,
      fun he => ?_, fun he hmask => ?_, fun he hmask z hz l hl => ?_⟩
    · rw [resultTaken_staleProbe _ ht hc hp he]
      exact placed_completed hp rfl rfl _ rfl
    · rw [resultTaken_probe vc ic masked ht hc he, probeReading_cases s n vc ic masked hp, hmask, if_pos rfl]
      have line := line_maskedStep s n
      exact placed_completed (by rw [line]; exact hp) ((onlyLine_closed n).maskedStep s).work.runs line _ rfl
    · rw [resultTaken_probe vc ic masked ht hc he, hmask]
      obtain ⟨fails, passes, succeeds⟩ := probeReading_usable vc ic s n hp
      have probed : l = (s.line n).probed vc ic := by subst hl hz; rfl
      subst hz
      rw [probed]
      refine ⟨fun hz => ?_, fun hz hcount => ?_, fun hz hcount => ?_, fun w hw hs hi ha hmove hlearn => ?_⟩
      · rw [fails hz]
        exact failed_completed vc ic s n _ rfl _ rfl
      · rw [passes hz hcount]
        have line := line_probePassed vc ic s n
        exact placed_completed (by rw [line]; exact hp) (probePassed_runs vc ic s n) line _ rfl
      · rw [succeeds hz hcount]
        exact succeeded_completed vc ic s n _ rfl _ rfl
      · obtain ⟨restored, failed⟩ := restore_completed (m := m) vc ic hw hs hi ha hmove hlearn
        refine ⟨fun hz hcount => ?_, fun hz => ?_⟩
        · rw [succeeds hz hcount]
          exact restored _ rfl
        · rw [fails hz]
          exact failed _ rfl
  · have kept : ReadingKept n s (resultTaken m (.line vc ic masked) s) :=
      resultTaken_line_closed (readingKept_closed n) vc ic masked ht
    refine ⟨_, completion_taken hf hreset (by rw [ht]; rfl), afterResult_store m _ s, fun hmode => ⟨fun he => ?_,
      fun he z hz zf hzf dev hdev snap hsnap => ⟨fun hc hs => ⟨fun hmask => ?_, fun hmask d hd => ?_⟩,
        fun hc hp => ⟨fun hmask => ?_, fun hmask hz' => ?_, fun hmask hz' hcount => ?_, fun hmask hz' hcount => ?_⟩⟩⟩⟩
    · exact (afterResult_faults (kept.outlasts.move hm) (by rw [kept.mc]) hmode).trans (resultTaken_staleFaults _ ht he)
    · refine SentAlike.shown ?_ kept hm hmode
      rw [resultTaken_classified vc ic masked ht hc he, classificationReading_cases s n vc ic masked hs, hmask, if_pos rfl]
      exact (maskedStep_sends n s).trans (placeLineIfCounting_alike _ n)
    · have sent : SentAlike (blindAfter n false (if d.changed then classChange n (s.line n).confirmed d.confirmed snap s
          else s)) (resultTaken m (.line vc ic masked) s) := by
        rw [resultTaken_classified vc ic masked ht hc he, classificationReading_cases s n vc ic masked hs, hmask,
          if_neg Bool.false_ne_true]
        subst hd hsnap hdev hzf hz
        exact (usable_sends vc ic hs).trans (placeLineIfCounting_alike _ n)
      refine ⟨fun hd => ?_, fun hd => ?_⟩ <;> refine SentAlike.shown ?_ kept hm hmode
      · simpa only [hd, Bool.false_eq_true, ↓reduceIte] using sent
      · simpa only [hd, ↓reduceIte] using sent
    · refine SentAlike.shown ?_ kept hm hmode
      rw [resultTaken_probe vc ic masked ht hc he, probeReading_cases s n vc ic masked hp, hmask, if_pos rfl]
      exact (maskedStep_sends n s).trans (placeVerify_alike _ _)
    · refine SentAlike.shown ?_ kept hm hmode
      subst hsnap hdev hzf hz
      rw [resultTaken_probe vc ic masked ht hc he, hmask, (probeReading_usable vc ic s n hp).1 hz']
      have taken := probeTaken_sends n vc ic s
      have sent := probeFails_sends n (probeTaken n vc ic s)
      rw [line_probeTaken] at sent
      refine SentAlike.trans ?_ sent
      change SentAlike (if (s.line n).confirmed = .short then _ else _) (if (s.line n).confirmed = .short then _ else _)
      split
      · exact taken
      · exact classChange_alike n _ .short _ taken
    · refine SentAlike.shown ?_ kept hm hmode
      subst hz
      rw [resultTaken_probe vc ic masked ht hc he, hmask, (probeReading_usable vc ic s n hp).2.1 hz' hcount]
      exact ((probeTaken_sends n vc ic s).trans (setLine_alike _ n _)).trans (placeVerify_alike _ _)
    · refine SentAlike.shown ?_ kept hm hmode
      subst hsnap hdev hzf hz
      rw [resultTaken_probe vc ic masked ht hc he, hmask, (probeReading_usable vc ic s n hp).2.2 hz' hcount]
      have sent := probeSucceeds_sends n (probePassed n vc ic s)
      rw [line_probePassed] at sent
      exact (classChange_alike n _ .normal _ ((probeTaken_sends n vc ic s).trans (setLine_alike _ n _))).trans sent
  · refine ⟨_, completion_taken hf hreset (by rw [ht]; rfl), afterResult_store m _ s, fun hmode => ⟨fun h => ?_,
      fun he hs hc code hcode d hd snap hsnap => ?_⟩⟩
    · have nothing : resultTaken m (.earth lc trip) s = s := by
        by_cases he : m.epochCopy = some (s.line n).epoch
        · rw [resultTaken_earth lc trip ht he, earthReading_cases, if_pos (h.resolve_left (not_not_intro he))]
        · exact resultTaken_staleEarth _ ht he
      rw [nothing] at hmode ⊢
      exact afterResult_faults (move_of_outlasts s n hm).1 rfl hmode
    · rw [resultTaken_earth lc trip ht he] at hmode ⊢
      have kept : ReadingKept n s (earthReading n lc trip s) := (readingKept_closed n).earthReading s lc trip
      obtain ⟨quiet, leaks, ends⟩ := earthReading_sends lc trip hs hc _ rfl
      have judged : d = debounce (s.line n).earth (s.line n).earthCandidate (s.line n).earthCount
          (requiredEarth (s.line n).cfg)
          (if isTrip (s.line n).cfg.threshold (effectiveLc lc trip) trip then .leak else .normal) := by
        have trips : isTrip (s.line n).cfg.threshold (effectiveLc lc trip) trip = true ↔
            trip = true ∨ 32 * (s.line n).cfg.threshold ≤ code.val := by
          rw [hcode, isTrip, Bool.or_eq_true]
          exact or_congr_right decide_eq_true_iff
        simp only [hd, trips]
      have shown : snap = ((s.line n).earthed lc trip).earthSnapshot := by rw [hsnap, hcode]; rfl
      rw [judged, shown]
      exact ⟨fun h => (quiet h).shown kept hm hmode, fun h e => (leaks h e).shown kept hm hmode,
        fun h e => (ends h e).shown kept hm hmode⟩
end

section
/-! PROOFS. The order of the changeover queue (R87), and what the changeover unit and the amplifier supervisor keep where every
entry joins and leaves the queue in that order. -/

namespace Sys2Proof.Machine

variable {s t u : State}

/-! ### The order of entries (R87) -/

/-- Where an entry stands: AUTO first, then by sequence. -/
def CoEntry.place (e : CoEntry) : Nat := (match e.origin with | .auto => 0 | .manual => 65536) + e.seq.toNat

theorem before_iff {x y : CoEntry} : x.before y = true ↔ x.place < y.place := by
  have hx := x.seq.isLt
  have hy := y.seq.isLt
  unfold CoEntry.before CoEntry.place
  cases x.origin <;> cases y.origin <;> simp <;> omega

theorem not_before_iff {x y : CoEntry} : x.before y = false ↔ y.place ≤ x.place := by
  rw [← Bool.not_eq_true, before_iff, not_lt]

theorem insertEntry_perm (e : CoEntry) (l : List CoEntry) : (insertEntry e l).Perm (e :: l) := by
  induction l with
  | nil => exact .refl _
  | cons x xs ih =>
    unfold insertEntry; split
    · exact .refl _
    · exact (ih.cons x).trans (.swap e x xs)

/-- An entry put in its place leaves the queue in order (R87). -/
theorem insertEntry_sorted (e : CoEntry) {l : List CoEntry} (h : l.Pairwise fun x y => y.before x = false) :
    (insertEntry e l).Pairwise fun x y => y.before x = false := by
  simp only [not_before_iff] at h ⊢
  induction l with
  | nil => simp [insertEntry]
  | cons x xs ih =>
    obtain ⟨first, rest⟩ := List.pairwise_cons.mp h
    unfold insertEntry; split
    · next he =>
      have earlier := before_iff.mp he
      refine List.pairwise_cons.mpr ⟨fun z hz => ?_, h⟩
      obtain rfl | hz := List.mem_cons.mp hz
      · exact earlier.le
      · exact earlier.le.trans (first z hz)
    · next he =>
      refine List.pairwise_cons.mpr ⟨fun z hz => ?_, ih rest⟩
      obtain rfl | hz := List.mem_cons.mp ((insertEntry_perm e xs).mem_iff.mp hz)
      · exact not_before_iff.mp (Bool.eq_false_of_not_eq_true he)
      · exact first z hz

/-! ### The changeover queue in order (R87) -/

/-- The queue is in its order and holds no amplifier twice, and none that is operated on (R87). -/
structure Changeover.inOrder (c : Changeover) : Prop where
  sorted : c.queue.Pairwise fun x y => y.before x = false
  distinct : (c.queue.map (·.duty)).Nodup
  waiting : ∀ e ∈ c.queue, c.operatesOn e.duty = false

/-- A queue with no amplifier twice holds at most six entries. -/
theorem changeoverOk_iff : s.changeoverOk = true ↔ s.co.inOrder := by
  simp only [State.changeoverOk, Bool.and_eq_true, decide_eq_true_eq, List.all_eq_true, Bool.not_eq_true']
  constructor
  · rintro ⟨⟨⟨sorted, distinct⟩, waiting⟩, -⟩
    exact ⟨sorted, distinct, waiting⟩
  · rintro ⟨sorted, distinct, waiting⟩
    exact ⟨⟨⟨sorted, distinct⟩, waiting⟩, by simpa using distinct.length_le_card⟩

namespace Changeover
variable {c : Changeover}

theorem entryOf_some {d : AmpNo} {e : CoEntry} (h : c.entryOf d = some e) : e ∈ c.queue ∧ e.duty = d :=
  ⟨List.mem_of_find?_eq_some h, by simpa using List.find?_some h⟩

theorem entryOf_none {d : AmpNo} (h : c.entryOf d = none) : d ∉ c.queue.map (·.duty) := by
  intro hd
  obtain ⟨e, he, rfl⟩ := List.mem_map.mp hd
  simpa using List.find?_eq_none.mp h e he

theorem inOrder.filter (h : c.inOrder) (p : CoEntry → Bool) : inOrder { c with queue := c.queue.filter p } :=
  ⟨h.sorted.filter p, h.distinct.sublist (List.filter_sublist.map _), fun e he => h.waiting e (List.mem_filter.mp he).1⟩

theorem inOrder.ended (h : c.inOrder) : inOrder { c with op := none } := ⟨h.sorted, h.distinct, fun _ _ => rfl⟩

/-- An entry of an amplifier that has none, and is not operated on, joins in order. -/
theorem inOrder.joined (h : c.inOrder) {e : CoEntry} (fresh : e.duty ∉ c.queue.map (·.duty))
    (free : c.operatesOn e.duty = false) : inOrder { c with queue := insertEntry e c.queue } := by
  have perm := insertEntry_perm e c.queue
  refine ⟨insertEntry_sorted e h.sorted, ?_, fun x hx => ?_⟩
  · exact (perm.map (·.duty)).nodup_iff.mpr (List.nodup_cons.mpr ⟨fresh, h.distinct⟩)
  · obtain rfl | hx := List.mem_cons.mp (perm.mem_iff.mp hx)
    · exact free
    · exact h.waiting x hx

/-- The amplifier that is operated on waits in no entry. -/
theorem inOrder.fresh (h : c.inOrder) {d : AmpNo} (operated : c.operatesOn d = true) : d ∉ c.queue.map (·.duty) := by
  intro hd
  obtain ⟨e, he, rfl⟩ := List.mem_map.mp hd
  exact Bool.false_ne_true ((h.waiting e he).symm.trans operated)

end Changeover

/-! ### Steps of the changeover unit -/

/-- The mode is LOADING or STANDBY: nothing is measured or operated on (R35, R155). -/
def State.resting (s : State) : Prop := s.mc.mode = .loading ∨ s.mc.mode = .standby

theorem not_resting_of_runs (h : s.runs = true) : ¬s.resting := by
  rintro (e | e) <;> simp [State.runs, e] at h

/-- The changeover unit may become `c`: the queue stays in order, and no operation starts where the part rests. -/
structure CoStep (s : State) (c : Changeover) : Prop where
  order : s.co.inOrder → c.inOrder
  op : s.resting → s.co.op = none → c.op = none

theorem CoStep.counted (q : Word) : CoStep s { s.co with seqCounter := q } :=
  ⟨fun h => ⟨h.sorted, h.distinct, h.waiting⟩, fun _ h => h⟩

theorem CoStep.removed (d : AmpNo) : CoStep s { s.co with queue := s.co.queue.filter (·.duty ≠ d) } :=
  ⟨fun h => h.filter _, fun _ h => h⟩

theorem CoStep.joined {e : CoEntry} (fresh : s.co.entryOf e.duty = none) (free : s.co.operatesOn e.duty = false) :
    CoStep s { s.co with queue := insertEntry e s.co.queue } :=
  ⟨fun h => h.joined (Changeover.entryOf_none fresh) free, fun _ h => h⟩

/-- An entry is replaced where its amplifier has one already (R89). -/
theorem CoStep.replaced {e x : CoEntry} (h : s.co.entryOf e.duty = some x) :
    CoStep s { s.co with queue := insertEntry e (s.co.queue.filter (·.duty ≠ e.duty)) } := by
  obtain ⟨mem, duty⟩ := Changeover.entryOf_some h
  refine ⟨fun hs => (hs.filter _).joined (fun hd => ?_) (duty ▸ hs.waiting x mem), fun _ h => h⟩
  obtain ⟨y, hy, e'⟩ := List.mem_map.mp hd
  simp [e'] at hy

/-- The operation in flight keeps its duty amplifier. -/
theorem CoStep.asked (f : Operation → Operation) (hf : ∀ o, (f o).duty = o.duty) :
    CoStep s { s.co with op := s.co.op.map f } := by
  refine ⟨fun h => ⟨h.sorted, h.distinct, fun e he => ?_⟩, fun _ h => by rw [h]; rfl⟩
  have free := h.waiting e he
  cases ho : s.co.op with
  | none => rfl
  | some o => simpa [Changeover.operatesOn, ho, hf] using free

/-- A grant takes the entry of the amplifier it operates on out of the queue (R92, R98). -/
theorem CoStep.granted (hr : s.runs = true) (o : Operation) :
    CoStep s { s.co with queue := s.co.queue.filter (·.duty ≠ o.duty), op := some o } := by
  refine ⟨fun h => ⟨(h.filter _).sorted, (h.filter _).distinct, fun e he => ?_⟩,
    fun h => absurd h (not_resting_of_runs hr)⟩
  have other : e.duty ≠ o.duty := by simpa using (List.mem_filter.mp he).2
  simpa [Changeover.operatesOn] using other.symm

theorem CoStep.ended : CoStep s { s.co with op := none } := ⟨fun h => h.ended, fun _ _ => rfl⟩

/-- The amplifier of an operation that ends may join the queue again (R91). -/
theorem CoStep.rejoined {e : CoEntry} (h : s.co.operatesOn e.duty = true) :
    CoStep s { s.co with queue := insertEntry e s.co.queue, op := none } :=
  ⟨fun hs => hs.ended.joined (hs.fresh h) rfl, fun _ _ => rfl⟩

/-! ### What the changeover unit and the amplifier supervisor keep -/

/-- A relation that the primitive updates of the changeover unit and the amplifier supervisor keep, where entries join and
leave the queue in order and the verify queue takes no subject twice; failed verifies and the confirm queue are not among
them. -/
structure GrantClosed (R : State → State → Prop) : Prop where
  refl : ∀ s, R s s
  trans : ∀ {s t u}, R s t → R t u → R s u
  table : ∀ {s t}, SameButTable s t → R s t
  verify : ∀ s v, (s.chan.verify.Nodup → v.Nodup) → R s { s with chan.verify := v }
  co : ∀ s c, CoStep s c → R s { s with co := c }
  move : ∀ s m, R s { s with move := m }
  amp : ∀ s k x, AmpMoved (s.amp k) x → R s (s.setAmp k x)
  moveLine : ∀ s y n, R s (moveLine y s n)
  settles : ∀ s, s.mc.mode = .settling → R s { s with mc.settleCount := min 15 (s.mc.settleCount + 1) }
  active : ∀ s, s.mc.mode = .settling → R s { s with mc.mode := .active }
  freeze : ∀ s, s.mc.mode = .stopping → s.chan.inFlight.isNone → s.co.op.isNone →
    R s ({ s with mc.mode := .standby }.mapLines fun l => { l with timer := l.timer.freeze })

section Grants
variable {R : State → State → Prop} (hR : GrantClosed R) (s : State)
include hR

theorem GrantClosed.foldMoves (y : AmpNo) (l : List LineNo) : R s (l.foldl (Machine.moveLine y) s) := by
  induction l generalizing s with
  | nil => exact hR.refl s
  | cons n l ih => exact hR.trans (hR.moveLine s y n) (ih _)

theorem GrantClosed.moveLines (x y : AmpNo) : R s (moveLines x y s) := hR.trans (hR.foldMoves s y _) (hR.move _ _)

theorem GrantClosed.setAmpState (k : AmpNo) {st : AmpState} (h : st ≠ .disabled) : R s (setAmpState k st s) := by
  unfold Machine.setAmpState; dsimp only; split
  · exact hR.refl s
  · exact hR.amp s k _ ⟨rfl, fun e => absurd e h⟩

theorem GrantClosed.dropCovered (k : AmpNo) : R s (dropCovered k s) := hR.amp s k _ ⟨rfl, id⟩

theorem GrantClosed.dropCover (k : AmpNo) : R s (dropCover k s) := hR.amp s k _ ⟨rfl, id⟩

theorem GrantClosed.setCarrying (d y : AmpNo) : R s (setCarrying d y s) := hR.amp s d _ ⟨rfl, id⟩

theorem GrantClosed.freeStandby (x d : AmpNo) : R s (freeStandby x d s) := by
  unfold Machine.freeStandby; split
  · exact hR.trans (hR.setAmpState s x (by decide)) (hR.dropCovered _ x)
  · exact hR.refl s

theorem GrantClosed.raiseNoCover (d : AmpNo) : R s (raiseNoCover d s) := hR.table (raiseNoCover_same s d)

theorem GrantClosed.checkStopped : R s (checkStopped s) := by
  unfold Machine.checkStopped; split
  · next h => exact hR.trans (hR.freeze s h.1 h.2.1 h.2.2) (hR.table (signalAll_same _).table)
  · exact hR.refl s

theorem GrantClosed.stepSuspect (k : AmpNo) : R s (stepSuspect k s) := by
  unfold Machine.stepSuspect; dsimp only
  split
  · exact hR.setAmpState s k (by decide)
  · split
    · exact hR.setAmpState s k (by decide)
    · exact hR.refl s

theorem GrantClosed.setPhase (ph : Phase) : R s (setPhase ph s) := hR.co s _ (.asked _ fun _ => rfl)

theorem GrantClosed.seqOr (q : Option Word) : R s (seqOr q s).2 := by
  cases q with
  | none => exact hR.co s _ (.counted _)
  | some w => exact hR.refl s

theorem GrantClosed.replaceEntry {e x : CoEntry} (h : s.co.entryOf e.duty = some x) : R s (replaceEntry e s) :=
  hR.co s _ (.replaced h)

/-- The entry that a failed operation of `d` leaves behind, where the operation ends in the same step (R100, R101). -/
theorem GrantClosed.rejoinAutoCover {d : AmpNo} (h : s.co.operatesOn d = true) (q : Word) (r : Option Requester) :
    R s (rejoinAutoCover d q r { s with co.op := none }) :=
  hR.trans (hR.co s _ (.rejoined (e := ⟨d, .cover, .auto, r, q⟩) h)) (hR.raiseNoCover _ d)

theorem GrantClosed.rejoinFailedCover {o : Operation} (h : s.co.operatesOn o.duty = true) :
    R s (rejoinFailedCover o { s with co.op := none }) := by
  have manual : ∀ r, R s (joinEntry ⟨o.duty, .cover, .manual, r, o.seq⟩ { s with co.op := none }) := fun r =>
    hR.co s _ (.rejoined (e := ⟨o.duty, .cover, .manual, r, o.seq⟩) h)
  have ended := hR.co s _ .ended
  unfold Machine.rejoinFailedCover; dsimp only
  split
  · exact hR.rejoinAutoCover s h _ _
  · exact hR.trans (hR.trans (manual _) (hR.setAmpState _ _ (by decide))) (hR.table (clear_same _ _ _))
  · exact hR.trans (hR.trans ended (hR.setAmpState _ _ (by decide))) (hR.table (clear_same _ _ _))
  · exact manual _
  · exact manual _
  · exact ended

section Arrive
variable {arr : Arrive} (ha : ∀ s, R s (arr s))
include ha

theorem GrantClosed.placeVerify (k : AmpNo) : R s (placeVerify arr (.amp k) s) := by
  unfold Machine.placeVerify; split
  · exact hR.refl s
  · next h => exact hR.trans (hR.verify s _ fun hv => by simpa using hv.concat h) (ha _)

theorem GrantClosed.beginVerify (o : Operation) : R s (beginVerify arr o s) :=
  hR.trans (hR.setPhase s _) (hR.placeVerify _ ha _)

theorem GrantClosed.afterGrantMove (o : Operation) : R s (afterGrantMove arr o s) := by
  unfold Machine.afterGrantMove; split
  · exact hR.trans (hR.move s _) (hR.beginVerify _ ha o)
  · exact hR.refl s

theorem GrantClosed.grantCover (hr : s.runs = true) (e : CoEntry) (x : AmpNo) : R s (grantCover arr e x s) := by
  unfold Machine.grantCover; dsimp only
  refine hR.trans ?_ (hR.afterGrantMove _ ha _)
  refine hR.trans ?_ (hR.setCarrying _ _ _)
  refine hR.trans ?_ (hR.moveLines _ _ _)
  refine hR.trans ?_ (hR.table (clear_same _ _ _))
  refine hR.trans ?_ (hR.amp _ _ _ ⟨rfl, id⟩)
  exact hR.trans (hR.co s _ (.granted hr ⟨.cover, e.duty, x, e.origin, e.requester, e.seq, none, .moving⟩))
    (hR.setAmpState _ _ (by decide))

theorem GrantClosed.grantReturn (hr : s.runs = true) (e : CoEntry) : R s (grantReturn arr e s) := by
  unfold Machine.grantReturn; dsimp only
  refine hR.trans ?_ (hR.afterGrantMove _ ha _)
  refine hR.trans ?_ (hR.setCarrying _ _ _)
  exact hR.trans (hR.co s _ (.granted hr ⟨.returnLines, e.duty, (s.amp e.duty).carrying, e.origin, e.requester, e.seq,
    some ((s.amp e.duty).coverSeq.getD e.seq), .moving⟩)) (hR.moveLines _ _ _)

theorem GrantClosed.grantAttempt : R s (grantAttempt arr s) := by
  unfold Machine.grantAttempt; split
  · exact hR.refl s
  · next h =>
    have hr : s.runs = true := by simpa using fun e => h (.inr e)
    split
    · unfold grantEntry; split
      · split
        · exact hR.grantCover s ha hr _ _
        · exact hR.refl s
      · exact hR.grantReturn s ha hr _
    · exact hR.refl s

/-- The end of an operation, with the entry that joins as it ends (R91). -/
theorem GrantClosed.endOperation (o : Option CompletionOutcome) {rejoin : State → State}
    (hr : ∀ u : State, u.co = s.co → R u (rejoin { u with co.op := none })) : R s (endOperation arr o rejoin s) := by
  have next : ∀ t : State, R t (if t.mc.mode = .stopping then Machine.checkStopped t else Machine.grantAttempt arr t) := by
    intro t; split
    · exact hR.checkStopped t
    · exact hR.grantAttempt t ha
  unfold Machine.endOperation; dsimp only
  refine hR.trans ?_ (next _)
  split
  · next outcome =>
    have same := (completeIfAny_same s (s.co.op.bind (·.requester)) outcome).table
    exact hR.trans (hR.table same) (hr _ same.co)
  · exact hr s rfl

theorem GrantClosed.endOperation_id (o : Option CompletionOutcome) : R s (Machine.endOperation arr o id s) :=
  hR.endOperation s ha o fun u _ => hR.co u _ .ended

theorem GrantClosed.moveDone : R s (moveDone arr s) := by
  unfold Machine.moveDone; split
  · exact hR.refl s
  · next o ho =>
    have operated : ∀ u : State, u.co = s.co → u.co.operatesOn o.duty = true := fun u hu => by
      simp [Changeover.operatesOn, hu, ho]
    split
    · exact hR.beginVerify s ha _
    · exact hR.refl s
    · exact hR.endOperation s ha _ fun u hu => hR.rejoinFailedCover u (operated u hu)
    · refine hR.endOperation s ha _ fun u hu => ?_
      split
      · exact hR.rejoinAutoCover u (operated u hu) _ _
      · exact hR.co u _ .ended

theorem GrantClosed.reportMove : R s (reportMove arr s) := by
  unfold Machine.reportMove; split
  · exact hR.trans (hR.move s _) (hR.moveDone _ ha)
  · exact hR.refl s

theorem GrantClosed.moveBack (d x y : AmpNo) : R s (moveBack arr d x y s) :=
  hR.trans (hR.trans (hR.trans (hR.moveLines s x y) (hR.setCarrying _ _ _)) (hR.setPhase _ _)) (hR.reportMove _ ha)

theorem GrantClosed.afterRequest (d : AmpNo) : R s (afterRequest arr d s) :=
  hR.trans (hR.raiseNoCover s d) (hR.grantAttempt _ ha)

/-- An entry joins with a sequence number of its own or a carried one (R89). -/
theorem GrantClosed.joinSequenced {d : AmpNo} (fresh : s.co.entryOf d = none) (free : s.co.operatesOn d = false)
    (q : Option Word) (f : Word → CoEntry) (hf : ∀ w, (f w).duty = d) :
    R s (Machine.afterRequest arr d (joinEntry (f (Machine.seqOr q s).1) (Machine.seqOr q s).2)) := by
  refine hR.trans (hR.trans (hR.seqOr s q) (hR.co _ _ (.joined ?_ ?_))) (hR.afterRequest _ ha d)
  · rw [hf]; cases q <;> exact fresh
  · rw [hf]; cases q <;> exact free

theorem GrantClosed.askAutoCover (d : AmpNo) (q : Option Word) : R s (askAutoCover arr d q s) := by
  unfold Machine.askAutoCover; split
  · exact hR.co s _ (.asked _ fun _ => rfl)
  · next hd =>
    split
    · next e he =>
      obtain ⟨-, duty⟩ := Changeover.entryOf_some he
      exact hR.trans (hR.replaceEntry s (e := { e with kind := .cover, origin := .auto }) (duty ▸ he)) (hR.afterRequest _ ha d)
    · next he => exact hR.joinSequenced s ha he (by simpa using hd) q (⟨d, .cover, .auto, none, ·⟩) fun _ => rfl

theorem GrantClosed.askAutoReturn (d : AmpNo) (q : Option Word) : R s (askAutoReturn arr d q s) := by
  unfold Machine.askAutoReturn; split
  · exact hR.refl s
  · next hd =>
    split
    · exact hR.grantAttempt s ha
    · next he => exact hR.joinSequenced s ha he (by simpa using hd) q (⟨d, .returnLines, .auto, none, ·⟩) fun _ => rfl

theorem GrantClosed.dutyFails (d : AmpNo) : R s (dutyFails arr d s) := by
  unfold Machine.dutyFails; split
  · exact hR.trans (hR.setAmpState s _ (by decide)) (hR.askAutoCover _ ha _ _)
  · exact hR.trans (hR.setAmpState s _ (by decide)) (hR.askAutoCover _ ha _ _)
  · exact hR.setAmpState s _ (by decide)
  · split
    · next e he =>
      split
      · obtain ⟨-, duty⟩ := Changeover.entryOf_some he
        exact hR.trans (hR.replaceEntry s (e := { e with kind := .cover, origin := .auto }) (duty ▸ he))
          (hR.afterRequest _ ha _)
      · exact hR.refl s
    · exact hR.refl s
  · exact hR.refl s

theorem GrantClosed.loseCover (d : AmpNo) : R s (loseCover arr d s) := by
  unfold Machine.loseCover; dsimp only
  split
  · exact hR.trans (hR.trans (hR.dropCover s d) (hR.setAmpState _ _ (by decide))) (hR.askAutoCover _ ha _ _)
  · exact hR.trans (hR.trans (hR.dropCover s d) (hR.setAmpState _ _ (by decide))) (hR.askAutoReturn _ ha _ _)
  · exact hR.dropCover s d

theorem GrantClosed.coverLostInFlight (o : Operation) : R s (coverLostInFlight arr o s) :=
  hR.trans (hR.verify s _ fun hv => hv.filter _) (hR.moveBack _ ha _ _ _)

theorem GrantClosed.standbyFails (x : AmpNo) : R s (standbyFails arr x s) := by
  have faulty := hR.trans (hR.setAmpState s x (st := .faulty) (by decide)) (hR.dropCovered _ x)
  unfold Machine.standbyFails; dsimp only
  split
  · exact faulty
  · exact hR.trans faulty (hR.coverLostInFlight _ ha _)
  · exact hR.trans faulty (hR.loseCover _ ha _)

theorem GrantClosed.confirmFail (k : AmpNo) (snap : Option Snapshot) : R s (confirmFail arr k snap s) := by
  unfold Machine.confirmFail; dsimp only
  refine hR.trans (hR.table (raise_same s (.ampFail k) snap)) ?_
  split
  · exact hR.dutyFails _ ha k
  · exact hR.standbyFails _ ha k

theorem GrantClosed.recoverQueued {k : AmpNo} {e : CoEntry} (he : s.co.entryOf k = some e) :
    R s (recoverQueued arr k e s) := by
  obtain ⟨-, duty⟩ := Changeover.entryOf_some he
  unfold Machine.recoverQueued; dsimp only
  refine hR.trans ?_ (hR.afterRequest _ ha _)
  refine hR.trans ?_ (hR.table (clear_same _ _ _))
  split
  · have healthy := hR.setAmpState s k (st := .healthy) (by decide)
    have waits : (Machine.setAmpState k .healthy s).co.entryOf e.duty = some e := by
      rw [(setAmpState_alone s k .healthy).co, duty]; exact he
    split
    · exact hR.trans healthy (hR.replaceEntry _ (e := { e with origin := .manual }) waits)
    · exact hR.trans healthy (hR.co _ _ (.removed k))
  · exact hR.replaceEntry s (e := { e with kind := .returnLines, origin := .auto }) (duty ▸ he)

theorem GrantClosed.confirmNormal (k : AmpNo) (snap : Option Snapshot) : R s (confirmNormal arr k snap s) := by
  unfold Machine.confirmNormal; dsimp only
  refine hR.trans (hR.table (clear_same s (.ampFail k) snap)) ?_
  split
  · exact hR.trans (hR.setAmpState _ _ (by decide)) (hR.grantAttempt _ ha)
  · split
    · exact hR.refl _
    · split
      · next e he =>
        split
        · exact hR.recoverQueued _ ha he
        · exact hR.refl _
      · exact hR.refl _
  · exact hR.refl _

theorem GrantClosed.ampStepped (k : AmpNo) (d : Debounce Condition) (snap : Option Snapshot) :
    R s (ampStepped arr k d snap s) := by
  unfold Machine.ampStepped; split
  · split
    · exact hR.confirmFail s ha k snap
    · exact hR.confirmNormal s ha k snap
  · exact hR.stepSuspect s k

section Verify
variable (hv : ∀ s k ac prot, R s (recordVerifyFail k ac prot s))
include hv

/-- What a failed verify records kept as well, every verify result is (R93 to R95, R99, R100). -/
theorem GrantClosed.takeVerify (k : AmpNo) (ac : Code) (ov prot : Bool) : R s (takeVerify arr k ac ov prot s) := by
  unfold Machine.takeVerify; split
  · exact hR.refl s
  · next o ho =>
    have coverPass : R s (coverPass arr o s) := by
      unfold Machine.coverPass; dsimp only
      refine hR.trans ?_ (hR.endOperation_id _ ha _)
      refine hR.trans ?_ (hR.amp _ _ _ ⟨rfl, id⟩)
      split
      · exact hR.setAmpState s _ (by decide)
      · exact hR.setAmpState s _ (by decide)
      · exact hR.setAmpState s _ (by decide)
      · exact hR.refl s
    have coverFail : R s (coverFail arr o ac prot s) := by
      unfold Machine.coverFail; dsimp only
      refine hR.trans ?_ (hR.moveBack _ ha _ _ _)
      exact hR.trans (hR.trans (hR.setAmpState s _ (by decide)) (hR.dropCovered _ _)) (hv _ _ _ _)
    have returnPass : R s (returnPass arr o s) := by
      unfold Machine.returnPass; dsimp only
      refine hR.trans ?_ (hR.endOperation_id _ ha _)
      exact hR.trans (hR.trans (hR.setAmpState s _ (by decide)) (hR.dropCover _ _)) (hR.freeStandby _ _ _)
    have returnFail : R s (returnFail arr o ac prot s) := by
      have failed := hv s o.duty ac prot
      have same : (recordVerifyFail o.duty ac prot s).co = s.co := (raise_same _ _ _).co
      unfold Machine.returnFail; dsimp only
      generalize recordVerifyFail o.duty ac prot s = v at failed same
      refine hR.trans failed ?_
      split
      · refine hR.trans ?_ (hR.moveBack _ ha _ _ _)
        split
        · exact hR.setAmpState _ _ (by decide)
        · exact hR.refl _
      · have dropped : (Machine.dropCover o.duty (Machine.setAmpState o.duty .failed v)).co = s.co :=
          (setAmpState_alone v o.duty .failed).co.trans same
        have lost : R v (Machine.dropCover o.duty (Machine.setAmpState o.duty .failed v)) :=
          hR.trans (hR.setAmpState v o.duty (by decide)) (hR.dropCover _ _)
        refine hR.trans lost (hR.endOperation _ ha _ fun u hu => hR.rejoinAutoCover u ?_ _ _)
        simp [Changeover.operatesOn, hu, dropped, ho]
    split
    · exact hR.refl s
    · split
      · exact hR.placeVerify s ha _
      · dsimp only
        split
        · split
          · exact coverPass
          · exact coverFail
        · split
          · exact returnPass
          · exact returnFail

end Verify

end Arrive

/-- The move to ACTIVE (R151). -/
theorem GrantClosed.enterActive (h : s.mc.mode = .settling) : R s (enterActive s) := by
  unfold Machine.enterActive; dsimp only
  refine hR.trans ?_ (hR.grantAttempt _ hR.refl)
  refine hR.trans ?_ (hR.table (foldl_sameButTable _ (fun s n => heldEarth_same s n) _ _))
  exact hR.trans (hR.active s h) (hR.table (foldl_sameButTable _ (fun s n => heldRaises_same s n) _ _))

theorem GrantClosed.countRound : R s (countRound s) := by
  unfold Machine.countRound; split
  · next h =>
    dsimp only; split
    · exact hR.trans (hR.settles s h) (hR.enterActive _ h)
    · exact hR.settles s h
  · exact hR.refl s

end Grants

end Sys2Proof.Machine
end

section
/-! PROOFS. The queues of the channel, the mode and the changeover queue stay in order through the work of every block (O59). -/

namespace Sys2Proof.Machine

variable {s t u : State}

/-! ### The promises part by part -/

/-- Neither queue of the channel holds a subject twice (R25, R26). -/
structure Channel.distinct (c : Channel) : Prop where
  verify : c.verify.Nodup
  confirm : c.confirm.Nodup

/-- There are 22 subjects (R25). -/
theorem length_le_of_nodup {l : List Subject} (h : l.Nodup) : l.length ≤ 22 := by
  have all : l ⊆ allLines.map .line ++ allAmps.map .amp := by
    intro x _
    cases x with
    | line n => simp [mem_allLines]
    | amp k => simp [mem_allAmps]
  exact (List.subperm_of_subset h all).length_le

theorem queuesOk_iff : s.queuesOk = true ↔ s.chan.distinct := by
  simp only [State.queuesOk, Bool.and_eq_true, decide_eq_true_eq]
  constructor
  · rintro ⟨⟨⟨verify, confirm⟩, -⟩, -⟩
    exact ⟨verify, confirm⟩
  · rintro ⟨verify, confirm⟩
    exact ⟨⟨⟨verify, confirm⟩, length_le_of_nodup verify⟩, length_le_of_nodup confirm⟩

/-- A round is in progress exactly while supervision runs (R28, R35). -/
def State.roundFits (s : State) : Prop := s.chan.round.isSome = s.runs

/-- The confirm queue is empty while supervision does not run (R26, R35). -/
def State.confirmGated (s : State) : Prop := s.runs = false → s.chan.confirm = []

/-- In LOADING and STANDBY nothing is measured or operated on (R35, R155). -/
def State.quiet (s : State) : Prop := s.resting → s.chan.inFlight = none ∧ s.co.op = none

theorem modeOk_iff : s.modeOk = true ↔ s.mc.settleCount ≤ 15 ∧ s.roundFits ∧ s.confirmGated ∧ s.quiet := by
  simp only [State.modeOk, State.roundFits, State.confirmGated, State.quiet, State.resting, Bool.and_eq_true,
    Bool.or_eq_true, decide_eq_true_eq, beq_iff_eq, List.isEmpty_iff, Option.isNone_iff_eq_none, and_assoc, ne_eq]
  cases s.runs <;> cases s.mc.mode <;> simp

/-! ### Steps that keep them -/

/-- From `s` to `t` the queues of the channel, the changeover queue and what the mode promises stay in order; whether
supervision runs, whether the part loads, and the store stand. -/
structure Tidy (s t : State) : Prop where
  queues : s.chan.distinct → t.chan.distinct
  changeover : s.co.inOrder → t.co.inOrder
  settled : s.mc.settleCount ≤ 15 → t.mc.settleCount ≤ 15
  round : s.roundFits → t.roundFits
  confirm : s.confirmGated → t.confirmGated
  quiet : s.quiet → t.quiet
  runs : t.runs = s.runs
  loading : t.mc.mode = .loading ↔ s.mc.mode = .loading
  store : t.store = s.store

theorem Tidy.trans (h : Tidy s t) (g : Tidy t u) : Tidy s u where
  queues := g.queues ∘ h.queues
  changeover := g.changeover ∘ h.changeover
  settled := g.settled ∘ h.settled
  round := g.round ∘ h.round
  confirm := g.confirm ∘ h.confirm
  quiet := g.quiet ∘ h.quiet
  runs := g.runs.trans h.runs
  loading := g.loading.trans h.loading
  store := g.store.trans h.store

/-- A change of mode control that neither starts nor ends supervision, and comes to rest only where nothing is in flight. -/
theorem Tidy.of_mode (hc : t.chan = s.chan) (ho : t.co = s.co) (hs : t.store = s.store)
    (hn : s.mc.settleCount ≤ 15 → t.mc.settleCount ≤ 15) (hr : t.runs = s.runs)
    (hl : t.mc.mode = .loading ↔ s.mc.mode = .loading)
    (hq : t.resting → s.resting ∨ s.chan.inFlight = none ∧ s.co.op = none) : Tidy s t where
  queues h := by rw [hc]; exact h
  changeover h := by rw [ho]; exact h
  settled := hn
  round h := by rw [State.roundFits, hc, hr]; exact h
  confirm h := by rw [State.confirmGated, hc, hr]; exact h
  quiet h := fun g => by rw [hc, ho]; exact (hq g).elim h id
  runs := hr
  loading := hl
  store := hs

/-- A change of nothing that the promises speak of. -/
theorem Tidy.of_same (hc : t.chan = s.chan) (ho : t.co = s.co) (hs : t.store = s.store) (hm : t.mc.mode = s.mc.mode)
    (hn : t.mc.settleCount = s.mc.settleCount) : Tidy s t :=
  .of_mode hc ho hs (fun h => by rw [hn]; exact h) (by simp only [State.runs, hm]) (by rw [hm])
    fun h => .inl (by simpa only [State.resting, hm] using h)

theorem Tidy.refl (s : State) : Tidy s s := .of_same rfl rfl rfl rfl rfl

theorem Tidy.of_work (h : LineWork s t) (hc : t.chan = s.chan) : Tidy s t :=
  .of_same hc h.co h.store (by rw [h.mc]) (by rw [h.mc])

theorem SameButTable.tidy (h : SameButTable s t) : Tidy s t := .of_work h.lineWork h.chan

/-- A change of the channel: subjects join a queue once, nothing joins the confirm queue while supervision does not run, and
nothing is measured where the part rests. -/
theorem Tidy.of_chan (w : LineWork s t) (hd : s.chan.distinct → t.chan.distinct)
    (hr : t.chan.round.isSome = s.chan.round.isSome) (hg : s.runs = false → s.chan.confirm = [] → t.chan.confirm = [])
    (hf : s.resting → s.chan.inFlight = none → t.chan.inFlight = none) : Tidy s t where
  queues := hd
  changeover h := by rw [w.co]; exact h
  settled h := by rw [w.mc]; exact h
  round h := by rw [State.roundFits, hr, w.runs]; exact h
  confirm h := fun g => by rw [w.runs] at g; exact hg g (h g)
  quiet h := fun g => by
    rw [State.resting, w.mc] at g
    exact ⟨hf g (h g).1, by rw [w.co]; exact (h g).2⟩
  runs := w.runs
  loading := by rw [w.mc]
  store := w.store

/-- A change of the channel that lets subjects go from the queues. -/
theorem Tidy.of_less (w : LineWork s t) (hv : t.chan.verify.Sublist s.chan.verify)
    (hc : t.chan.confirm.Sublist s.chan.confirm) (hr : t.chan.round.isSome = s.chan.round.isSome)
    (hf : s.resting → s.chan.inFlight = none → t.chan.inFlight = none) : Tidy s t :=
  .of_chan w (fun h => ⟨h.verify.sublist hv, h.confirm.sublist hc⟩) hr
    (fun _ h => by rw [h] at hc; exact List.sublist_nil.mp hc) hf

/-- A change of the channel that touches neither queue, with the measurement in flight still one. -/
theorem Tidy.of_queues (w : LineWork s t) (hv : t.chan.verify = s.chan.verify) (hc : t.chan.confirm = s.chan.confirm)
    (hr : t.chan.round.isSome = s.chan.round.isSome) (hf : t.chan.inFlight.isSome = s.chan.inFlight.isSome) : Tidy s t :=
  .of_less w (by rw [hv]) (by rw [hc]) hr fun _ h => by
    rw [h] at hf
    simpa using hf

theorem tidy_co {c : Changeover} (h : CoStep s c) : Tidy s { s with co := c } where
  queues := id
  changeover := h.order
  settled := id
  round := id
  confirm := id
  quiet hq := fun g => ⟨(hq g).1, h.op g (hq g).2⟩
  runs := rfl
  loading := .rfl
  store := rfl

theorem setLine_tidy (s : State) (n : LineNo) (l : Line) : Tidy s (s.setLine n l) := .of_same rfl rfl rfl rfl rfl

theorem setAmp_tidy (s : State) (k : AmpNo) (x : Amp) : Tidy s (s.setAmp k x) := .of_same rfl rfl rfl rfl rfl

theorem foldl_tidy {α : Type} (f : State → α → State) (h : ∀ s a, Tidy s (f s a)) (l : List α) (s : State) :
    Tidy s (l.foldl f s) := by
  induction l generalizing s with
  | nil => exact .refl s
  | cons a l ih => exact (h s a).trans (ih _)

/-! ### Queues, learn jobs and orders -/

theorem withdrawVerify_tidy (s : State) (x : Subject) : Tidy s (withdrawVerify x s) :=
  .of_less (withdrawVerify_work s x) List.filter_sublist (.refl _) rfl fun _ h => h

theorem withdrawConfirm_tidy (s : State) (x : Subject) : Tidy s (withdrawConfirm x s) :=
  .of_less (withdrawConfirm_work s x) (.refl _) List.filter_sublist rfl fun _ h => h

theorem placeVerify_tidy {arr : Arrive} (ha : ∀ s, Tidy s (arr s)) (s : State) (x : Subject) :
    Tidy s (placeVerify arr x s) := by
  unfold placeVerify; split
  · exact .refl s
  · next hx =>
    refine .trans ?_ (ha _)
    exact .of_chan (withChan_work s _) (fun h => ⟨by simpa using h.verify.concat hx, h.confirm⟩) rfl (fun _ h => h)
      fun _ h => h

/-- A subject joins the confirm queue once, and only while supervision runs (R26). -/
theorem placeConfirm_tidy (s : State) (x : Subject) : Tidy s (placeConfirm x s) := by
  unfold placeConfirm; split
  · exact .refl s
  · next hx =>
    obtain ⟨hr, hx⟩ : s.runs = true ∧ x ∉ s.chan.confirm := by simpa using hx
    exact .of_chan (withChan_work s _) (fun h => ⟨h.verify, by simpa using h.confirm.concat hx⟩) rfl
      (fun h => by rw [hr] at h; cases h) fun _ h => h

theorem complete_tidy (s : State) (r : Requester) (o : CompletionOutcome) : Tidy s (complete r o s) :=
  (complete_same s r o).table.tidy

theorem endWaiting_tidy (s : State) (n : LineNo) (o : CompletionOutcome) : Tidy s (endWaiting n o s) :=
  (setLine_tidy s n _).trans (completeIfAny_same _ _ _).table.tidy

theorem endLearn_tidy (s : State) (o : CompletionOutcome) : Tidy s (endLearn o s) := by
  have kept := endLearn_chanKept s o
  have queues : (endLearn o s).chan.verify = s.chan.verify ∧ (endLearn o s).chan.confirm = s.chan.confirm := by
    cases h : s.chan.job with
    | none => rw [endLearn_none s o h]; exact ⟨rfl, rfl⟩
    | some j => rw [endLearn_eq s o h]; exact ⟨rfl, rfl⟩
  exact .of_queues (endLearn_work s o) queues.1 queues.2 (by rw [kept.round]) kept.inFlight

theorem abortLearnOf_tidy (s : State) (n : LineNo) : Tidy s (abortLearnOf n s) := by
  unfold abortLearnOf; split
  · split
    · exact endLearn_tidy s _
    · exact .refl s
  · exact .refl s

theorem orderSelector_tidy (s : State) (n : LineNo) (pos : Selector) : Tidy s (orderSelector n pos s) := by
  have kept := orderSelector_chanKept s n pos
  obtain ⟨-, verify, confirm, round, -⟩ := orderSelector_frame s n pos
  exact .of_queues (orderSelector_work s n pos) verify confirm (by rw [round]) kept.inFlight

theorem moveLine_tidy (s : State) (y : AmpNo) (n : LineNo) : Tidy s (moveLine y s n) := by
  unfold moveLine; dsimp only; split
  · exact (setLine_tidy s n _).trans (orderSelector_tidy _ n _)
  · exact setLine_tidy s n _

/-! ### The changeover unit and the amplifier supervisor -/

theorem runs_of_mode {mode : Mode} (h : s.mc.mode = mode) : s.runs = (decide (mode = .settling) || decide (mode = .active)) := by
  rw [State.runs, h]

theorem tidy_grants : GrantClosed Tidy where
  refl := .refl
  trans := .trans
  table h := h.tidy
  verify s _ h := .of_chan (withChan_work s _) (fun hs => ⟨h hs.verify, hs.confirm⟩) rfl (fun _ h => h) fun _ h => h
  co _ _ h := tidy_co h
  move _ _ := .of_same rfl rfl rfl rfl rfl
  amp s k x _ := setAmp_tidy s k x
  moveLine := moveLine_tidy
  settles s _ := .of_mode rfl rfl rfl (fun _ => Nat.min_le_left _ _) rfl .rfl .inl
  active s h := by
    refine .of_mode rfl rfl rfl id ?_ ?_ fun g => ?_
    · rw [runs_of_mode h]; rfl
    · simp [h]
    · simp [State.resting] at g
  freeze s h hf ho := by
    refine .of_mode rfl rfl rfl id ?_ ?_ fun _ => .inr ⟨by simpa using hf, by simpa using ho⟩
    · rw [runs_of_mode h]; rfl
    · simp [h, State.mapLines]

theorem recordVerifyFail_tidy (s : State) (k : AmpNo) (ac : Code) (prot : Bool) : Tidy s (recordVerifyFail k ac prot s) :=
  ((setAmp_tidy s k _).trans (withdrawConfirm_tidy _ _)).trans (raise_same _ _ _).tidy

theorem placeAmpIfCounting_tidy (s : State) (k : AmpNo) : Tidy s (placeAmpIfCounting k s) := by
  unfold placeAmpIfCounting; split
  · exact placeConfirm_tidy s _
  · exact .refl s

theorem ampReading_tidy (s : State) (k : AmpNo) (ac : Code) (ov prot : Bool) : Tidy s (ampReading id k ac ov prot s) := by
  rw [ampReading_cases]; split
  · exact .refl s
  · refine .trans ?_ (placeAmpIfCounting_tidy _ k)
    split
    · exact .refl s
    · exact (setAmp_tidy s k _).trans (tidy_grants.ampStepped _ .refl k _ _)

/-! ### Rounds (R28, R30) -/

theorem startRound_tidy (s : State) (h : s.runs = true) : Tidy s (startRound s) where
  queues hs := ⟨hs.verify, hs.confirm⟩
  changeover := id
  settled := id
  round _ := h.symm
  confirm hs := hs
  quiet hs := hs
  runs := rfl
  loading := .rfl
  store := rfl

theorem startRound_fits (h : s.runs = true) : (startRound s).roundFits := h.symm

/-- A round ends with the next one started where supervision runs, and with none where it does not (R30). -/
theorem endRound_fits (s : State) (h : Tidy s.roundOver (endRound s)) : (endRound s).roundFits := by
  cases hr : s.runs with
  | true =>
    rw [endRound_runs s hr]
    refine startRound_fits ?_
    rw [(signalAll_same _).table.lineWork.runs, countRound_runs, hr]
  | false => exact h.round hr.symm

theorem endRound_tidy (s : State) : Tidy s (endRound s) := by
  have ended : Tidy s.roundOver (endRound s) := by
    have started : ∀ u : State, Tidy u (if u.runs then startRound u else u) := by
      intro u; split
      · next h => exact startRound_tidy u h
      · exact .refl u
    exact ((tidy_grants.countRound s.roundOver).trans (signalAll_same _).table.tidy).trans (started _)
  exact {
    queues := fun h => ended.queues ⟨h.verify, h.confirm⟩
    changeover := ended.changeover
    settled := ended.settled
    round := fun _ => endRound_fits s ended
    confirm := ended.confirm
    quiet := ended.quiet
    runs := ended.runs
    loading := ended.loading
    store := ended.store }

/-! ### The search (R32 to R35) -/

theorem searchQueue_sublist (judge : Subject → Judgement) (l : List Subject) : (searchQueue judge l).2.Sublist l := by
  induction l with
  | nil => exact .refl _
  | cons x xs ih =>
    unfold searchQueue; split
    · exact List.sublist_cons_self x xs
    · exact ih.cons_cons x
    · exact ih.cons x

theorem tryVerify_tidy (s : State) (h : ¬s.resting) : Tidy s (tryVerify s) := by
  have less := searchQueue_sublist (judgeVerify s) s.chan.verify
  unfold tryVerify; dsimp only; split
  · exact .of_less (withChan_work s _) less (.refl _) rfl fun g => absurd g h
  · exact .of_less (withChan_work s _) less (.refl _) rfl fun _ g => g

section Runs
variable (s : State) (h : s.runs = true)
include h

theorem tryConfirm_tidy : Tidy s (tryConfirm s) := by
  have less := searchQueue_sublist (judgeConfirm s) s.chan.confirm
  unfold tryConfirm; dsimp only; split
  · exact .of_less (withChan_work s _) (.refl _) less rfl fun g => absurd g (not_resting_of_runs h)
  · exact .of_less (withChan_work s _) (.refl _) less rfl fun _ g => g

theorem tryLearn_tidy : Tidy s (tryLearn s) := by
  unfold tryLearn; split
  · exact .refl s
  · split
    · exact .of_less (withChan_work s _) (.refl _) (.refl _) rfl fun g => absurd g (not_resting_of_runs h)
    · exact .refl s

theorem takeSlot_tidy {r : Round} (hr : s.chan.round = some r) (q : Round) (i : Nat) (x : Target) :
    Tidy s (takeSlot q i x s) := by
  unfold takeSlot; split
  · exact .of_queues (withChan_work s _) rfl rfl (by rw [hr]; rfl) rfl
  · exact .of_less (withChan_work s _) (.refl _) (.refl _) (by rw [hr]; rfl) fun g => absurd g (not_resting_of_runs h)

theorem tryFirstSlot_tidy : Tidy s (tryFirstSlot s) := by
  unfold tryFirstSlot; split
  · exact .refl s
  · next hr =>
    split
    · exact takeSlot_tidy s h hr _ _ _
    · exact .refl s

theorem tryScan_tidy : Tidy s (tryScan s) := by
  unfold tryScan; split
  · exact .refl s
  · next hr =>
    split
    · exact .refl s
    · split
      · exact takeSlot_tidy s h hr _ _ _
      · have ended := endRound_tidy s
        exact ended.trans (tryFirstSlot_tidy _ (ended.runs.trans h))

theorem firstGrant_tidy (l : List (State → State)) (hl : ∀ f ∈ l, ∀ s : State, s.runs = true → Tidy s (f s)) :
    Tidy s (firstGrant l s) := by
  induction l generalizing s with
  | nil => exact .refl s
  | cons f fs ih =>
    have tried := hl f (by simp) s h
    unfold firstGrant; dsimp only
    split
    · exact tried
    · exact tried.trans (ih _ (tried.runs.trans h) fun g hg => hl g (by simp [hg]))

theorem searchOnce_tidy : Tidy s (searchOnce s) := by
  refine firstGrant_tidy s h _ fun f hf => ?_
  rcases List.mem_cons.mp hf with rfl | hf
  · exact fun s h => tryVerify_tidy s (not_resting_of_runs h)
  · obtain ⟨c, -, rfl⟩ := List.mem_map.mp hf
    cases c with
    | confirm => exact tryConfirm_tidy
    | learn => exact tryLearn_tidy
    | scan => exact tryScan_tidy

theorem searchRunning_tidy : Tidy s (searchRunning s) := by
  have once := searchOnce_tidy s h
  unfold searchRunning; dsimp only; split
  · exact once.trans (searchOnce_tidy _ (once.runs.trans h))
  · exact once

end Runs

theorem channelFree_tidy (s : State) : Tidy s (channelFree s) := by
  have free : Tidy s { s with chan := { s.chan with inFlight := none } } :=
    .of_less (withChan_work s _) (.refl _) (.refl _) rfl fun _ _ => rfl
  unfold channelFree; dsimp only
  refine free.trans ?_
  cases hm : s.mc.mode with
  | settling | active => exact searchRunning_tidy _ (runs_of_mode (mode := s.mc.mode) rfl |>.trans (by rw [hm]; rfl))
  | stopping =>
    have tried := tryVerify_tidy { s with chan := { s.chan with inFlight := none } } (by simp [State.resting, hm])
    dsimp only; split
    · exact tried.trans (tidy_grants.checkStopped _)
    · exact tried
  | loading | standby => exact .refl _

theorem arrival_tidy (s : State) : Tidy s (arrival s) := by
  unfold arrival; split
  · exact .refl s
  · exact channelFree_tidy s

theorem reportMove_tidy (s : State) : Tidy s (reportMove arrival s) := tidy_grants.reportMove s arrival_tidy

/-! ### Readings on a line -/

section Line
variable (s : State) (n : LineNo)

theorem startRetry_tidy : Tidy s (startRetry n s) := by rw [startRetry_eq]; exact setLine_tidy s n _

theorem endProbe_tidy (c : IsolationCause) : Tidy s (endProbe n c s) := (orderSelector_tidy s n _).trans (setLine_tidy _ n _)

theorem placeLineIfCounting_tidy : Tidy s (placeLineIfCounting n s) := by
  unfold placeLineIfCounting; split
  · exact placeConfirm_tidy s _
  · exact .refl s

theorem maskedStep_tidy : Tidy s (maskedStep n s) := .of_work (maskedStep_work s n) (maskedStep_chan n s)

theorem usableStep_tidy : Tidy s (usableStep n s) := .of_work (usableStep_work s n) (usableStep_chan n s)

theorem confirmedChange_tidy (old : LineClass) : Tidy s (confirmedChange n old s) := by
  unfold confirmedChange; dsimp only; split
  · exact (orderSelector_tidy s n _).trans <| (setLine_tidy _ n _).trans <| (withdrawConfirm_tidy _ _).trans <|
      (sendClassChange_same _ n _ _).tidy.trans (startRetry_tidy _ n)
  · exact (sendClassChange_same s n _ _).tidy

theorem classificationReading_tidy (vc ic : Code) (ov : Bool) : Tidy s (classificationReading n vc ic ov s) := by
  by_cases h : (s.line n).state = .connected
  · have judged : Tidy s (classJudged n vc ic s) := by
      unfold classJudged; dsimp only; split
      · exact (setLine_tidy s n _).trans (confirmedChange_tidy _ n _)
      · exact setLine_tidy s n _
    rw [classificationReading_cases s n vc ic ov h]
    refine .trans ?_ (placeLineIfCounting_tidy _ n)
    split
    · exact maskedStep_tidy s n
    · exact judged.trans (usableStep_tidy _ n)
  · rw [classificationReading, if_pos h]
    exact .refl s

theorem probeSucceeds_tidy : Tidy s (probeSucceeds n s) :=
  (orderSelector_tidy s n _).trans <| (setLine_tidy _ n _).trans <| (clearClass_same _ n _).tidy.trans <|
    (setLine_tidy _ n _).trans (endWaiting_tidy _ n _)

theorem failedClass_tidy : Tidy s (failedClass n s) := by
  unfold failedClass; split
  · exact .refl s
  · exact (setLine_tidy s n _).trans (sendClassChange_same _ n _ _).tidy

theorem probeFails_tidy : Tidy s (probeFails n s) := by
  have lost : Tidy s (probeLost n s) :=
    (endProbe_tidy s n _).trans <| (setLine_tidy _ n _).trans <| (failedClass_tidy _ n).trans <|
      (setLine_tidy _ n _).trans (endWaiting_tidy _ n _)
  rw [probeFails_eq]; dsimp only; split
  · exact lost.trans (setLine_tidy _ n _)
  · exact lost.trans (startRetry_tidy _ n)

theorem placeVerify_id_tidy (x : Subject) : Tidy s (placeVerify id x s) := placeVerify_tidy .refl s x

theorem probeReading_tidy (vc ic : Code) (ov : Bool) : Tidy s (probeReading id n vc ic ov s) := by
  by_cases h : (s.line n).state = .probing
  · have taken : Tidy s (probeTaken n vc ic s) := (setLine_tidy s n _).trans (usableStep_tidy _ n)
    rw [probeReading_cases s n vc ic ov h]
    split
    · exact (maskedStep_tidy s n).trans (placeVerify_id_tidy _ _)
    · dsimp only; split
      · exact taken.trans (probeFails_tidy _ n)
      · split
        · exact (taken.trans (setLine_tidy _ n _)).trans (probeSucceeds_tidy _ n)
        · exact (taken.trans (setLine_tidy _ n _)).trans (placeVerify_id_tidy _ _)
  · rw [probeReading, if_pos h]
    exact .refl s

theorem learnSample_tidy (vc ic : Code) (ov : Bool) : Tidy s (learnSample n vc ic ov s) := by
  have learned : ∀ (u : State) (z : Nat), Tidy u (setLearned n z u) := fun u z =>
    (setLine_tidy u n _).trans <| (setLine_tidy _ n _).trans <| (withdrawConfirm_tidy _ _).trans (clear_same _ _ _).tidy
  unfold learnSample; dsimp only
  split
  · exact endLearn_tidy s _
  · split
    · exact endLearn_tidy s _
    · split
      · exact setLine_tidy s n _
      · split
        · exact (setLine_tidy s n _).trans (endLearn_tidy _ _)
        · exact ((setLine_tidy s n _).trans (learned _ _)).trans (endLearn_tidy _ _)

theorem earthReading_tidy (lc : Code) (trip : Bool) : Tidy s (earthReading n lc trip s) := by
  rw [earthReading_cases]; split
  · exact .refl s
  · dsimp only; split
    · exact (setLine_tidy s n _).trans (sendEarth_same _ n).tidy
    · exact setLine_tidy s n _

end Line

/-! ### The delivery of a result (R36, R37) -/

theorem placeStale_tidy (s : State) (m : Measurement) : Tidy s (placeStale m s) := by
  unfold placeStale; split
  · split
    · exact placeConfirm_tidy s _
    · exact .refl s
  · split
    · exact placeConfirm_tidy s _
    · exact .refl s
  · exact placeAmpIfCounting_tidy s _
  · exact placeAmpIfCounting_tidy s _
  · split
    · exact placeVerify_id_tidy s _
    · exact .refl s
  · split
    · exact placeVerify_id_tidy s _
    · exact .refl s
  · exact .refl s

theorem deliver_tidy (s : State) (m : Measurement) (r : Reading) : Tidy s (deliver m r s) := by
  unfold deliver; split
  · unfold deliverLine; split
    · exact probeReading_tidy s _ _ _ _
    · split
      · exact .refl s
      · exact learnSample_tidy s _ _ _ _
    · exact classificationReading_tidy s _ _ _ _
    · exact classificationReading_tidy s _ _ _ _
  · exact earthReading_tidy s _ _ _
  · split
    · exact tidy_grants.takeVerify s .refl recordVerifyFail_tidy _ _ _ _
    · exact ampReading_tidy s _ _ _ _
  · exact .refl s

theorem completeMeasurement_tidy (s : State) (m : Measurement) (r : Reading) : Tidy s (completeMeasurement m r s) := by
  have taken : Tidy s (resultTaken m r s) := by
    unfold resultTaken; split
    · exact placeStale_tidy s m
    · exact deliver_tidy s m r
  have slot : ∀ u : State, Tidy u (slotCompleted m u) := by
    intro u; unfold slotCompleted; split
    · exact endRound_tidy u
    · exact .refl u
  rw [completeMeasurement_eq]
  exact ((taken.trans (tidy_grants.reportMove _ .refl)).trans (slot _)).trans (channelFree_tidy _)

/-! ### Probes and mode control -/

theorem startProbe_tidy {arr : Arrive} (ha : ∀ s, Tidy s (arr s)) (s : State) (n : LineNo) : Tidy s (startProbe arr n s) :=
  ((orderSelector_tidy s n _).trans (setLine_tidy _ n _)).trans (placeVerify_tidy ha _ _)

theorem startDueProbes_tidy {arr : Arrive} (ha : ∀ s, Tidy s (arr s)) (s : State) : Tidy s (startDueProbes arr s) :=
  foldl_tidy _ (fun s n => by split; exacts [startProbe_tidy ha s n, .refl s]) _ s

theorem endEmergencyIfOver_tidy (s t : State) : Tidy t (endEmergencyIfOver s t) := by
  unfold endEmergencyIfOver endEmergency; dsimp only; split
  · refine .trans ?_ (tidy_grants.grantAttempt _ arrival_tidy)
    split
    · exact startDueProbes_tidy arrival_tidy t
    · exact .refl t
  · exact .refl t

/-- The state as the mode becomes SETTLING (R150). -/
def State.settling (s : State) : State := { s with mc := { s.mc with mode := .settling, settleCount := 0 } }

/-- All that the entry to SETTLING does once the mode is SETTLING; it ends with a round in progress (R150). -/
theorem enterSettling_tidy (b : Bool) (s : State) : Tidy s.settling (enterSettling b s) ∧ (enterSettling b s).roundFits := by
  have begun : Tidy s.settling (settlingBegun b s) := by cases b <;> exact .of_same rfl rfl rfl rfl rfl
  have due : ∀ u : State, Tidy u (dueStarted u) := by
    intro u; unfold dueStarted; split
    · exact .refl u
    · exact startDueProbes_tidy .refl u
  have granted : Tidy s.settling (grantAttempt id (dueStarted (settlingBegun b s))) :=
    (begun.trans (due _)).trans (tidy_grants.grantAttempt _ .refl)
  have runs : (grantAttempt id (dueStarted (settlingBegun b s))).runs = true := granted.runs
  rw [enterSettling_eq]
  generalize grantAttempt id (dueStarted (settlingBegun b s)) = u at granted runs
  have free := arrival_tidy (startRound u)
  exact ⟨(granted.trans (startRound_tidy u runs)).trans free, free.round (startRound_fits runs)⟩

theorem stopProbe_tidy (s : State) (n : LineNo) : Tidy s (stopProbe s n) := by
  unfold stopProbe; split
  · exact (endProbe_tidy s n _).trans <| (withdrawVerify_tidy _ _).trans <| (endWaiting_tidy _ n _).trans
      (startRetry_tidy _ n)
  · exact .refl s

theorem stopLines_tidy (s : State) : Tidy s (stopLines s) := by
  unfold stopLines; dsimp only
  refine .trans ?_ (foldl_tidy _ stopProbe_tidy _ _)
  refine (endLearn_tidy s .learnAborted).trans ?_
  exact .of_same rfl rfl rfl rfl rfl

/-- The state as the mode becomes STOPPING, with the round abandoned (R35, R154). -/
def State.stopping (s : State) : State := abandonRound { s with mc := { s.mc with mode := .stopping } }

/-- All that the entry to STOPPING does once the round is abandoned (R154). -/
theorem enterStopping_tidy (s : State) : Tidy s.stopping (enterStopping s) := by
  unfold enterStopping; dsimp only
  refine .trans ?_ (tidy_grants.checkStopped _)
  refine .trans ?_ (signalAll_same _).table.tidy
  refine .trans ?_ (reportMove_tidy _)
  exact stopLines_tidy s.stopping

end Sys2Proof.Machine
end

section
/-! PROOFS. The conditions of the baseline records, and every step keeps the queues, the mode, the changeover queue and the
store in order (O59). -/

namespace Sys2Proof.Machine

variable {s t u : State}

/-! ### The store in order (R162, R166, R176) -/

/-- The write in flight is one of record `k`. -/
def Store.writing (w : Store) (k : RecordNo) : Bool := w.write.any (·.record = k)

/-- A record's condition is WRITING exactly while a write of it is in flight (R162). -/
def Store.agrees (w : Store) : Prop := ∀ k : RecordNo, (w.status.get k).condition = .writing ↔ w.writing k = true

/-- No write runs during LOADING, and the count of judged records stands at 23 from its end (R166, R176). -/
def Store.fits (w : Store) (m : Mode) : Prop :=
  (m = .loading → w.write = none ∧ w.judged < 23) ∧ (m ≠ .loading → w.judged = 23)

theorem mem_allRecords (k : RecordNo) : k ∈ allRecords := by revert k; decide

theorem storeOk_iff : s.storeOk = true ↔ s.store.agrees ∧ s.store.fits s.mc.mode := by
  have agrees : (allRecords.all fun k => ((s.recordStatus k).condition = .writing) == s.writes k) = true ↔
      s.store.agrees := by
    have word : ∀ k, (decide ((s.recordStatus k).condition = .writing) == s.writes k) = true ↔
        ((s.store.status.get k).condition = .writing ↔ s.store.writing k = true) := by
      intro k
      rw [beq_iff_eq, Bool.eq_iff_iff, decide_eq_true_eq]
      rfl
    rw [List.all_eq_true]
    exact ⟨fun h k => (word k).mp (h k (mem_allRecords k)), fun h k _ => (word k).mpr (h k)⟩
  rw [State.storeOk, Bool.and_eq_true, agrees, Store.fits]
  by_cases hm : s.mc.mode = .loading <;> simp [hm]

theorem storeOk_congr (hs : t.store = s.store) (hm : t.mc.mode = .loading ↔ s.mc.mode = .loading) :
    t.storeOk = true ↔ s.storeOk = true := by
  rw [storeOk_iff, storeOk_iff, Store.fits, Store.fits, hs, ne_eq, ne_eq, hm]

theorem status_set (v : Vector RecordStatus 23) (k j : RecordNo) (c : RecordStatus) :
    (v.set k.val c k.isLt).get j = if j = k then c else v.get j := by
  change (v.set k.val c k.isLt)[j.val] = _
  rw [Vector.getElem_set]
  by_cases h : j = k
  · rw [if_pos h, if_pos (by rw [h])]
  · rw [if_neg h, if_neg fun e => h (Fin.ext e.symm)]
    rfl

/-- The condition of one record changes with the write in flight. -/
theorem Store.agrees.set {w x : Store} (h : w.agrees) {k : RecordNo} {c : RecordStatus}
    (hs : x.status = w.status.set k.val c k.isLt) (own : c.condition = .writing ↔ x.writing k = true)
    (others : ∀ j, j ≠ k → x.writing j = w.writing j) : x.agrees := by
  intro j
  rw [hs, status_set]
  split
  · next e => rw [e]; exact own
  · next e => rw [others j e]; exact h j

/-! ### Steps that keep the promises -/

/-- From `s` to `t` the queues, the mode and the changeover queue stay in order. -/
structure OrderKept (s t : State) : Prop where
  queues : s.queuesOk = true → t.queuesOk = true
  mode : s.modeOk = true → t.modeOk = true
  changeover : s.changeoverOk = true → t.changeoverOk = true

/-- From `s` to `t` all that O59 speaks of stays in order. -/
structure SafeStep (s t : State) : Prop extends OrderKept s t where
  store : s.storeOk = true → t.storeOk = true

theorem OrderKept.trans (h : OrderKept s t) (g : OrderKept t u) : OrderKept s u :=
  ⟨g.queues ∘ h.queues, g.mode ∘ h.mode, g.changeover ∘ h.changeover⟩

theorem SafeStep.trans (h : SafeStep s t) (g : SafeStep t u) : SafeStep s u :=
  ⟨h.toOrderKept.trans g.toOrderKept, g.store ∘ h.store⟩

theorem Tidy.order (h : Tidy s t) : OrderKept s t where
  queues hq := queuesOk_iff.mpr (h.queues (queuesOk_iff.mp hq))
  mode hm := by
    obtain ⟨settled, round, confirm, quiet⟩ := modeOk_iff.mp hm
    exact modeOk_iff.mpr ⟨h.settled settled, h.round round, h.confirm confirm, h.quiet quiet⟩
  changeover hc := changeoverOk_iff.mpr (h.changeover (changeoverOk_iff.mp hc))

theorem Tidy.safe (h : Tidy s t) : SafeStep s t := ⟨h.order, (storeOk_congr h.store h.loading).mpr⟩

theorem SafeStep.refl (s : State) : SafeStep s s := (Tidy.refl s).safe

/-- A change of the store alone. -/
theorem SafeStep.of_store {x : Store} (h : s.store.agrees → s.store.fits s.mc.mode → x.agrees ∧ x.fits s.mc.mode) :
    SafeStep s { s with store := x } :=
  ⟨⟨id, id, id⟩, fun hs => storeOk_iff.mpr (h (storeOk_iff.mp hs).1 (storeOk_iff.mp hs).2)⟩

/-- The same writes and the same conditions; the rest of the store is not spoken of. -/
theorem SafeStep.of_agreeing {x : Store} (hs : x.status = s.store.status) (hw : ∀ k, x.writing k = s.store.writing k)
    (hn : s.store.write = none → x.write = none) (hj : x.judged = s.store.judged) : SafeStep s { s with store := x } := by
  refine .of_store fun agrees fits => ⟨fun k => ?_, fun hm => ?_, fun hm => ?_⟩
  · rw [hs, hw]; exact agrees k
  · rw [hj]; exact ⟨hn (fits.1 hm).1, (fits.1 hm).2⟩
  · rw [hj]; exact fits.2 hm

/-! ### Mode control -/

/-- The entry to SETTLING keeps what is in order, and begins a round (R150). -/
theorem enterSettling_order (b : Bool) (s : State) : OrderKept s (enterSettling b s) := by
  obtain ⟨begun, fits⟩ := enterSettling_tidy b s
  have runs : (enterSettling b s).runs = true := begun.runs
  refine ⟨begun.order.queues, fun _ => modeOk_iff.mpr ⟨begun.settled (Nat.zero_le _), fits, fun h => ?_, fun h => ?_⟩,
    begun.order.changeover⟩
  · rw [runs] at h; cases h
  · exact absurd h (not_resting_of_runs runs)

/-- The entry to STOPPING abandons the round and empties the confirm queue (R35, R154). -/
theorem enterStopping_order (s : State) : OrderKept s (enterStopping s) := by
  have begun := enterStopping_tidy s
  refine ⟨fun h => ?_, fun h => ?_, begun.order.changeover⟩
  · obtain ⟨verify, -⟩ := queuesOk_iff.mp h
    exact begun.order.queues (queuesOk_iff.mpr ⟨verify, List.nodup_nil⟩)
  · obtain ⟨settled, -⟩ := modeOk_iff.mp h
    exact begun.order.mode (modeOk_iff.mpr ⟨settled, rfl, fun _ => rfl, fun g => by simp [State.resting, State.stopping,
      abandonRound] at g⟩)

theorem enterStopping_safe (h : s.mc.mode ≠ .loading) : SafeStep s (enterStopping s) := by
  have begun := enterStopping_tidy s
  refine ⟨enterStopping_order s, (storeOk_congr (s := s) begun.store (begun.loading.trans ?_)).mpr⟩
  simp [State.stopping, abandonRound, h]

/-- The entry to STANDBY from LOADING, in which nothing is measured or operated on either (R149). -/
theorem enterStandby_order (h : s.mc.mode = .loading) : OrderKept s (enterStandby s) := by
  have chan := enterStandby_chan s
  obtain ⟨exact, -⟩ := enterStandby_exact s
  generalize enterStandby s = t at chan exact
  have co : t.co = s.co := by rw [exact]
  have mode : t.mc = { s.mc with mode := .standby } := by rw [exact]
  have runs : t.runs = s.runs := by simp [State.runs, mode, h]
  refine ⟨fun hq => ?_, fun hm => ?_, fun hc => ?_⟩
  · rw [queuesOk_iff, chan]; exact queuesOk_iff.mp hq
  · obtain ⟨settled, round, confirm, quiet⟩ := modeOk_iff.mp hm
    refine modeOk_iff.mpr ⟨by rw [mode]; exact settled, ?_, ?_, fun _ => ?_⟩
    · rw [State.roundFits, chan, runs]; exact round
    · rw [State.confirmGated, chan, runs]; exact confirm
    · rw [chan, co]; exact quiet (.inl h)
  · rw [changeoverOk_iff, co]; exact changeoverOk_iff.mp hc

/-! ### LOADING (R165, R166) -/

theorem established_tidy (s : State) : Tidy s (established s) := by
  have amp : ∀ (s : State) (k : AmpNo), Tidy s (establishAmp s k) := by
    intro s k
    unfold establishAmp; dsimp only
    split
    · exact .refl s
    · split
      · exact tidy_grants.setAmpState s k (by decide)
      · exact tidy_grants.setAmpState s k (by decide)
  have line : ∀ (s : State) (n : LineNo), Tidy s (establishLine s n) := by
    intro s n
    unfold establishLine; dsimp only
    split
    · exact ((setLine_tidy s n _).trans (setLine_tidy _ n _)).trans (orderSelector_tidy _ n _)
    · exact (setLine_tidy s n _).trans (orderSelector_tidy _ n _)
  exact (foldl_tidy _ amp _ s).trans (foldl_tidy _ line _ _)

theorem endLoading_order (h : s.mc.mode = .loading) : OrderKept s (endLoading s) := by
  have ready := established_tidy s
  rw [endLoading_eq]
  refine ready.order.trans ?_
  split
  · exact enterSettling_order false _
  · exact enterStandby_order (ready.loading.mpr h)

theorem configured_tidy (s : State) (k : RecordNo) (b : List Byte) (found : LoadCause) : Tidy s (s.configured k b found) := by
  unfold State.configured loadFields loadDefaults
  split <;> cases subjectOf k <;> exact .of_same rfl rfl rfl rfl rfl

/-- A judged record is not being written, as no record is (R166). -/
theorem judges_agrees {w : Store} (h : w.agrees) (hn : w.write = none) (k : RecordNo) (found : LoadCause) :
    (w.judges k found).agrees := by
  refine h.set (k := k) rfl ?_ fun j _ => rfl
  have none : (w.judges k found).writing k = false := by simp [Store.writing, Store.judges, hn]
  rw [none]
  split <;> simp

theorem settleRecord_safe (hm : s.mc.mode = .loading) (k : RecordNo) (b : List Byte) (found : LoadCause) :
    SafeStep s (settleRecord k b found s) := by
  have configured := configured_tidy s k b found
  have store := configured.store
  have loading := configured.loading.mpr hm
  rw [settleRecord_next]
  generalize s.configured k b found = v at configured store loading
  dsimp only
  have judged : OrderKept s { v with store := s.store.judges k found } := configured.order.trans ⟨id, id, id⟩
  split
  · next last =>
    have raised := loadRaises_same { v with store := s.store.judges k found }
    have ended := endLoading_ended (loadRaises { v with store := s.store.judges k found })
    have order := endLoading_order (s := loadRaises { v with store := s.store.judges k found }) (by rw [raised.mc]; exact loading)
    generalize loadRaises { v with store := s.store.judges k found } = x at raised ended order
    generalize endLoading x = t at ended order
    have judges : t.store = s.store.judges k found := ended.store.trans raised.store
    refine ⟨(judged.trans raised.tidy.order).trans order, fun hs => ?_⟩
    obtain ⟨agrees, fits⟩ := storeOk_iff.mp hs
    have left : t.mc.mode ≠ .loading := by rw [ended.mc]; dsimp only; split <;> simp
    rw [storeOk_iff, judges]
    exact ⟨judges_agrees agrees (fits.1 hm).1 k found, fun h => absurd h left, fun _ => last⟩
  · next more =>
    refine ⟨judged, fun hs => ?_⟩
    obtain ⟨agrees, fits⟩ := storeOk_iff.mp hs
    obtain ⟨none, count⟩ := fits.1 hm
    refine storeOk_iff.mpr ⟨judges_agrees agrees none k found, fun _ => ⟨none, ?_⟩, fun h => absurd loading h⟩
    change s.store.judged + 1 < 23
    omega

/-! ### The store device (R167, R168) -/

theorem setArea_safe (s : State) (k : RecordNo) (a : Area) : SafeStep s (setArea k a s) :=
  .of_agreeing rfl (fun _ => rfl) id rfl

/-- A write begins where none is in flight, and not in LOADING (R167). -/
theorem startWrite_safe (hn : s.store.write = none) (hm : s.mc.mode ≠ .loading) (p : Port) (tag : Byte) (k : RecordNo) :
    SafeStep s (startWrite p tag k s) := by
  refine .of_store fun agrees fits => ⟨agrees.set rfl ?_ fun j hj => ?_, fun h => absurd h hm, fits.2⟩
  · simp [Store.writing]
  · simp [Store.writing, hn, hj.symm]

/-- The write in flight ends with a condition that is not WRITING (R168). -/
theorem writeEnded_safe {w : WriteInFlight} (hw : s.store.write = some w) {x : Store} {c : RecordStatus}
    (hs : x.status = s.store.status.set w.record.val c w.record.isLt) (hc : c.condition ≠ .writing)
    (hn : x.write = none) (hj : x.judged = s.store.judged) : SafeStep s { s with store := x } := by
  have none : ∀ k, x.writing k = false := fun k => by simp [Store.writing, hn]
  refine .of_store fun agrees fits => ⟨agrees.set hs (by simp [none, hc]) fun j hj => ?_, fun h => ?_, fun h => ?_⟩
  · rw [none]; simp [Store.writing, hw, hj.symm]
  · rw [(fits.1 h).1] at hw; cases hw
  · rw [hj]; exact fits.2 h

theorem writeDone_safe {w : WriteInFlight} (hw : s.store.write = some w) : SafeStep s (writeDone w s) := by
  have ended : SafeStep s (setStatus w.record { s.recordStatus w.record with condition := .valid }
      (setArea w.record (.known w.bytes) { s with store.write := none })) :=
    writeEnded_safe hw rfl (by simp) rfl rfl
  exact ended.trans ((clear_same _ _ _).tidy.trans (complete_tidy _ _ _)).safe

theorem writeTimedOut_safe {w : WriteInFlight} (hw : s.store.write = some w) : SafeStep s (writeTimedOut w s) := by
  have ended : SafeStep s (setStatus w.record { s.recordStatus w.record with condition := .writeFailed }
      (setArea w.record .unknown { s with store.write := none, store.reportsDue := s.store.reportsDue + 1 })) :=
    writeEnded_safe hw rfl (by simp) rfl rfl
  refine ended.trans (Tidy.trans ?_ (complete_tidy _ _ _)).safe
  split
  · exact .refl _
  · exact (raise_same _ _ _).tidy

theorem lateReport_safe (s : State) : SafeStep s (lateReport s) := .of_agreeing rfl (fun _ => rfl) id rfl

/-! ### Resets and the passing of a millisecond -/

theorem beginReset_safe (s : State) (kind : ResetKind) : SafeStep s (beginReset kind s) where
  queues _ := queuesOk_iff.mpr ⟨List.nodup_nil, List.nodup_nil⟩
  mode _ := modeOk_iff.mpr ⟨Nat.zero_le _, rfl, fun _ => rfl, fun _ => ⟨rfl, rfl⟩⟩
  changeover _ := changeoverOk_iff.mpr ⟨.nil, .nil, by simp [beginReset, State.reset, resetChangeover]⟩
  store _ := by
    refine storeOk_iff.mpr ⟨fun k => ?_, fun _ => ⟨rfl, Nat.zero_lt_succ _⟩, fun h => absurd rfl h⟩
    simp [beginReset, resetStore, Store.writing, unjudged]

theorem endReset_safe (s : State) (r : ResetInForce) (low emerg : Bool) : SafeStep s (endReset r low emerg s) := by
  have ended : ∀ supply, SafeStep s { s with
      mc := { s.mc with cause := r.cause, emergInput := emerg, supply := supply, resetInForce := none } } :=
    fun _ => Tidy.safe (.of_same rfl rfl rfl rfl rfl)
  unfold endReset; dsimp only; split
  · exact (ended _).trans (raise_same _ _ _).tidy.safe
  · exact ended _

theorem tick_safe (s : State) : SafeStep s (tick s) := by
  unfold tick; split
  · exact .refl s
  · have times : Tidy s { s.mapLines Line.tick with
        chan :=
          { s.chan with
            inFlight := s.chan.inFlight.map fun m => { m with left := countDown m.left }
            round := s.chan.round.map fun r => { r with left := countDown r.left } } } :=
      .of_queues ((mapLines_work s Line.tick).trans (withChan_work _ _)) rfl rfl (by simp) (by simp)
    refine times.safe.trans (.of_agreeing rfl (fun k => ?_) (fun h => ?_) rfl)
    · simp only [Store.writing, Option.any_map]; rfl
    · have none : s.store.write = none := h
      simp [none]

end Sys2Proof.Machine
end

section
/-! PROOFS. Every command keeps the queues, the mode, the changeover queue and the store in order (O59). -/

namespace Sys2Proof.Machine

variable {s t : State}

/-! ### The requests on one line -/

section Lines
variable (s : State) (n : LineNo)

theorem isolateConnected_tidy : Tidy s (isolateConnected n s) :=
  (orderSelector_tidy s n _).trans <| (setLine_tidy _ n _).trans <| (withdrawConfirm_tidy _ _).trans (setLine_tidy _ n _)

theorem isolateProbing_tidy : Tidy s (isolateProbing n s) :=
  (endProbe_tidy s n _).trans <| (withdrawVerify_tidy _ _).trans <| (setLine_tidy _ n _).trans (endWaiting_tidy _ n _)

theorem isolateOff_tidy : Tidy s (isolateOff n s) := (setLine_tidy s n _).trans (endWaiting_tidy _ n _)

theorem isolateLine_tidy : Tidy s (isolateLine n s).1 := by
  unfold isolateLine; dsimp only
  split
  · exact (isolateConnected_tidy s n).trans (reportMove_tidy _)
  · exact (isolateProbing_tidy s n).trans (reportMove_tidy _)
  · split
    · exact .refl s
    · exact isolateOff_tidy s n
  · exact isolateOff_tidy s n
  · exact .refl s

theorem accept_tidy (p : Port) : Tidy s (accept p s).1 := by
  rw [accept_eq]; exact (setPort_same s p _).tidy

theorem acceptRestore_tidy (p : Port) (tag : Byte) : Tidy s (acceptRestore p tag n s) := by
  unfold acceptRestore; dsimp only; split
  · exact (setLine_tidy s n _).trans (startProbe_tidy arrival_tidy _ n)
  · exact (setLine_tidy s n _).trans (setLine_tidy _ n _)

theorem restoreLine_tidy (p : Port) (tag : Byte) : Tidy s (restoreLine p tag n s).1 := by
  have accepted := ((acceptRestore_tidy s n p tag).trans (accept_tidy _ p)).trans (reportMove_tidy _)
  unfold restoreLine; dsimp only
  split
  · split
    · exact .refl s
    · exact accepted
  · split
    · exact .refl s
    · exact accepted
  all_goals exact .refl s

theorem enableLine_tidy : Tidy s (enableLine n s).1 := by
  unfold enableLine; split
  · exact .refl s
  · dsimp only; split
    · exact (setLine_tidy s n _).trans (raise_same _ _ _).tidy
    · exact setLine_tidy s n _

theorem removeLine_tidy : Tidy s (removeLine n s) := by
  rw [removeLine_eq]
  refine .trans ?_ (abortLearnOf_tidy _ n)
  refine .trans ?_ (foldClears_same _ _).tidy
  unfold lineRemoved; dsimp only
  refine .trans ?_ (withdrawConfirm_tidy _ _)
  refine .trans ?_ (withdrawVerify_tidy _ _)
  refine .trans ?_ (setLine_tidy _ n _)
  exact (endWaiting_tidy s n _).trans (orderSelector_tidy _ n _)

theorem disableLine_tidy : Tidy s (disableLine n s).1 := by
  unfold disableLine
  split; · exact .refl s
  split; · exact .refl s
  rw [withReport_eq]; dsimp only
  exact (removeLine_tidy s n).trans (reportMove_tidy _)

theorem configureReference_tidy (old : LineConfig) : Tidy s (configureReference n old s) := by
  have changed : Tidy s (withdrawConfirm (.line n) (s.setLine n { s.line n with
      candidate := none, count := 0, deviation := deviationOf (s.line n).cfg.zref (s.line n).zf })) :=
    (setLine_tidy s n _).trans (withdrawConfirm_tidy _ _)
  unfold configureReference; dsimp only
  split; · exact .refl s
  split; · exact changed
  split
  · exact changed.trans (raise_same _ _ _).tidy
  · exact changed.trans (clear_same _ _ _).tidy

theorem configureEarth_tidy (old : LineConfig) : Tidy s (configureEarth n old s) := by
  have reset : ∀ P : Prop, [Decidable P] →
      Tidy s (if P then s.setLine n { s.line n with earthCandidate := none, earthCount := 0 } else s) := by
    intro P _; split
    · exact setLine_tidy s n _
    · exact .refl s
  unfold configureEarth; dsimp only
  split
  · exact (reset _).trans <| (setLine_tidy _ n _).trans (clear_same _ _ _).tidy
  · exact reset _

theorem configureRetry_tidy : Tidy s (configureRetry n s) := by
  unfold configureRetry; dsimp only
  split; · exact .refl s
  split; · exact setLine_tidy s n _
  split; · exact setLine_tidy s n _
  split
  · exact setLine_tidy s n _
  · exact .refl s

theorem configureLine_tidy (payload : List Byte) : Tidy s (configureLine payload n s).1 := by
  have applied : ∀ c, Tidy s (applyLineConfig n c s) := fun c =>
    (setLine_tidy s n _).trans <| (configureReference_tidy _ n _).trans <| (configureEarth_tidy _ n _).trans
      (configureRetry_tidy _ n)
  unfold configureLine; dsimp only
  split; · exact .refl s
  split; · exact .refl s
  split; · exact .refl s
  split
  · exact .refl s
  · exact applied _

theorem learnLine_tidy (p : Port) (tag : Byte) : Tidy s (learnLine p tag n s).1 := by
  have job : ∀ (u : State) (j : LearnJob), Tidy u { u with chan.job := some j } := fun u j =>
    .of_queues (withChan_work u _) rfl rfl rfl rfl
  unfold learnLine
  split; · exact .refl s
  split; · exact .refl s
  split; · exact .refl s
  split; · exact .refl s
  exact (((setLine_tidy s n _).trans (job _ _)).trans (arrival_tidy _)).trans (accept_tidy _ p)

end Lines

/-! ### The requests on one amplifier -/

section Amps
variable (s : State) (k : AmpNo)

/-- A MANUAL entry joins for an amplifier that has none and is not operated on (R102, R103). -/
theorem joinManual_tidy (h : s.co.engaged k = false) (kind : CoKind) (r : Requester) : Tidy s (joinManual kind k r s) := by
  obtain ⟨fresh, free⟩ : s.co.entryOf k = none ∧ s.co.operatesOn k = false := by simpa [Changeover.engaged] using h
  have counted : Tidy s { s with co := { s.co with seqCounter := s.co.seqCounter + 1 } } := tidy_co (.counted _)
  exact (counted.trans (tidy_co (.joined (e := ⟨k, kind, .manual, some r, s.co.seqCounter⟩) fresh free))).trans
    (tidy_grants.grantAttempt _ arrival_tidy)

theorem coverAmp_tidy (p : Port) (tag : Byte) : Tidy s (coverAmp p tag k s).1 := by
  unfold coverAmp
  split; · exact .refl s
  split; · exact .refl s
  split; · exact .refl s
  next free =>
  split; · exact .refl s
  split; · exact .refl s
  exact (joinManual_tidy s k (by simpa using free) _ _).trans (accept_tidy _ p)

theorem returnAmp_tidy (p : Port) (tag : Byte) : Tidy s (returnAmp p tag k s).1 := by
  unfold returnAmp
  split; · exact .refl s
  split; · exact .refl s
  split; · exact .refl s
  next free =>
  split; · exact .refl s
  exact (joinManual_tidy s k (by simpa using free) _ _).trans (accept_tidy _ p)

theorem enableAmp_tidy : Tidy s (enableAmp k s).1 := by
  unfold enableAmp; split
  · exact .refl s
  · next hd =>
    have brought : Tidy s (ampBrought k s) := setAmp_tidy s k _
    dsimp only
    rw [bringAmp_eq s k (not_not.mp hd)]
    split
    · exact brought
    · exact brought.trans (tidy_grants.grantAttempt _ arrival_tidy)

theorem releaseStandby_tidy (x : AmpNo) : Tidy s (releaseStandby k x s) := by
  have home : Tidy s (takeLinesHome x k s) := foldl_tidy _ (fun s n => moveLine_tidy s k n) _ s
  have released := (home.trans (tidy_grants.setCarrying _ k k)).trans (tidy_grants.dropCover _ k)
  have free := (released.trans (tidy_grants.setAmpState _ x (st := .free) (by decide))).trans (tidy_grants.dropCovered _ x)
  exact (free.trans (tidy_grants.grantAttempt _ arrival_tidy)).trans (reportMove_tidy _)

theorem disableAmp_tidy : Tidy s (disableAmp k s).1 := by
  have removed : Tidy s (ampRemoved k s) :=
    ((setAmp_tidy s k _).trans (withdrawConfirm_tidy _ _)).trans (foldClears_same _ _).tidy
  unfold disableAmp
  split; · exact .refl s
  split; · exact .refl s
  next hd =>
  split; · exact .refl s
  dsimp only
  rw [removeAmp_eq s k hd]
  split
  · split
    · exact removed.trans (releaseStandby_tidy _ k _)
    · exact removed
  · exact removed

theorem configureAmp_tidy (payload : List Byte) : Tidy s (configureAmp payload k s).1 := by
  unfold configureAmp; dsimp only
  split; · exact .refl s
  split; · exact .refl s
  split; · exact .refl s
  exact setAmp_tidy s k _

end Amps

/-! ### Mode control and the store -/

theorem setFlag_tidy (s : State) (p : Port) (v : Bool) : Tidy s (setFlag p v s) := by
  cases p with
  | a => exact .of_same rfl rfl rfl rfl rfl
  | b => exact .of_same rfl rfl rfl rfl rfl
  | m => exact .refl s

theorem startMode_safe (s : State) : SafeStep s (startMode s).1 := by
  unfold startMode; split
  · exact .refl s
  · next hm =>
    have begun := (enterSettling_tidy true s).1
    refine ⟨enterSettling_order true s, (storeOk_congr (s := s) begun.store (begun.loading.trans ?_)).mpr⟩
    simp [State.settling, hm]
  all_goals exact .refl s

theorem stopMode_safe (s : State) : SafeStep s (stopMode s).1 := by
  unfold stopMode
  split; · exact .refl s
  next hm =>
  split; · exact .refl s
  split; · exact .refl s
  split; · exact .refl s
  dsimp only
  exact enterStopping_safe hm

theorem storeRecord_safe (hm : s.mc.mode ≠ .loading) (p : Port) (tag : Byte) (payload : List Byte) :
    SafeStep s (storeRecord p tag payload s).1 := by
  unfold storeRecord
  split; · exact .refl s
  next k _ =>
  split; · exact .refl s
  next hw =>
  split; · exact .refl s
  exact (startWrite_safe (by simpa using hw) hm p tag k).trans (accept_tidy _ p).safe

/-! ### Taking a command -/

section Requests
variable {q : Request} {p : Port} {payload : List Byte}

theorem answer_tidy (s : State) (p : Port) (r : Reply) : Tidy s (s.answer p r) := (setPort_same s p _).tidy

theorem takeRequest_safe {act : State → State × Reply} (ht : takeRequest q p payload act s = .next t)
    (ha : portRefusal q p payload s = none → SafeStep s (act s).1) : SafeStep s t := by
  obtain ⟨-, e⟩ | ⟨c, -, -, e⟩ | ⟨-, hr, e⟩ := takeRequest_cases s q p payload act <;> rw [e] at ht <;> cases ht
  · exact .refl s
  · exact (answer_tidy s p _).safe
  · exact (ha hr).trans (answer_tidy _ p _).safe

/-- A request whose block leaves whether the part runs or loads, and the store, as they stand. -/
theorem tidyRequest_safe {act : State → State × Reply} (ht : takeRequest q p payload act s = .next t)
    (ha : Tidy s (act s).1) : SafeStep s t := takeRequest_safe ht fun _ => ha.safe

theorem lineRequest_safe {act : LineNo → State → State × Reply} (ht : takeRequest q p payload (onLine payload act) s = .next t)
    (ha : ∀ n, Tidy s (act n s).1) : SafeStep s t := by
  refine tidyRequest_safe ht ?_
  unfold onLine; split
  · exact .refl s
  · exact ha _

theorem ampRequest_safe {act : AmpNo → State → State × Reply} (ht : takeRequest q p payload (onAmp payload act) s = .next t)
    (ha : ∀ k, Tidy s (act k s).1) : SafeStep s t := by
  refine tidyRequest_safe ht ?_
  unfold onAmp; split
  · exact .refl s
  · exact ha _

theorem takeEvent_safe {act : State → State} (ht : takeEvent act s = .next t) (ha : SafeStep s (act s)) :
    SafeStep s t := by
  obtain ⟨-, e⟩ | ⟨-, e⟩ := takeEvent_cases s act <;> rw [e] at ht <;> cases ht
  · exact .refl s
  · exact ha

end Requests

/-! ### The notification requests -/

section Notification
variable {p : Port} {b : List Byte}

theorem execListen_safe (ht : execListen p b s = .next t) : SafeStep s t := by
  refine tidyRequest_safe ht ?_
  dsimp only; split
  · exact .refl s
  · exact (startListening_same s p).tidy

theorem execLeave_safe (ht : execLeave p b s = .next t) : SafeStep s t := by
  refine tidyRequest_safe ht ?_
  split
  · exact (stopListening_same s p).tidy
  · exact .refl s

theorem execSetNotify_safe (ht : execSetNotify p b s = .next t) : SafeStep s t :=
  tidyRequest_safe ht ((setPort_same s p _).trans (setPort_same _ p _)).tidy

theorem execFetch_safe (ht : execFetch p b s = .next t) : SafeStep s t := by
  refine tidyRequest_safe ht ?_
  dsimp only; split
  · exact (setPort_same s p _).tidy
  · split
    · exact (setPort_same s p _).tidy
    · exact (fetchRecord_same s p _ _).tidy

theorem execDone_safe (ht : execDone p b s = .next t) : SafeStep s t := by
  refine tidyRequest_safe ht ?_
  dsimp only; split
  · exact .refl s
  · exact (finishClass_same s p _).tidy

theorem execDoneClass_safe (ht : execDoneClass p b s = .next t) : SafeStep s t := by
  refine tidyRequest_safe ht ?_
  dsimp only; split
  · exact .refl s
  · split
    · exact (finishClass_same s p _).tidy
    · exact .refl s

theorem execReadCompletion_safe (ht : execReadCompletion p b s = .next t) : SafeStep s t := by
  refine tidyRequest_safe ht ?_
  dsimp only; split
  · exact .refl s
  · exact (setPort_same s p _).tidy

theorem execResetPort_safe (ht : execResetPort p b s = .next t) : SafeStep s t :=
  tidyRequest_safe ht (((resetPortSide_same s p).tidy.trans (setFlag_tidy _ p false)).trans (endEmergencyIfOver_tidy _ _))

theorem execAck_safe (ht : execAck p b s = .next t) : SafeStep s t := by
  refine tidyRequest_safe ht ?_
  split
  · exact .refl s
  · split
    · exact .refl s
    · split
      · exact (acknowledge_same s _ p).tidy
      · exact .refl s

theorem execEmergencyOn_safe (ht : execEmergencyOn p b s = .next t) : SafeStep s t := by
  refine tidyRequest_safe ht ?_
  split
  · exact .refl s
  · exact setFlag_tidy s p true

theorem execEmergencyOff_safe (ht : execEmergencyOff p b s = .next t) : SafeStep s t := by
  refine tidyRequest_safe ht ?_
  split
  · exact (setFlag_tidy s p false).trans (endEmergencyIfOver_tidy _ _)
  · exact .refl s

theorem execConfigureSystem_safe (ht : execConfigureSystem p b s = .next t) : SafeStep s t := by
  refine tidyRequest_safe ht ?_
  unfold configureSystem; dsimp only; split
  · exact .refl s
  · exact .of_same rfl rfl rfl rfl rfl

/-- STORE is not accepted in LOADING (R173). -/
theorem execStore_safe {tag : Byte} (ht : execStore p tag b s = .next t) : SafeStep s t := by
  refine takeRequest_safe ht fun passed => storeRecord_safe (fun hm => ?_) p tag b
  obtain ⟨-, -, -, loading, -⟩ := (portRefusal_none s .store p b).mp passed
  exact Bool.false_ne_true (loading hm)

end Notification

/-! ### Events -/

theorem execUnknownRequest_safe {p : Port} {code length : Byte} (ht : execUnknownRequest p code length s = .next t) :
    SafeStep s t := by
  refine takeEvent_safe ht ?_
  split
  · exact (answer_tidy s p _).safe
  · split
    · exact .refl s
    · exact (answer_tidy s p _).safe

theorem execResetEnd_safe {low emerg : Bool} (ht : execResetEnd low emerg s = .next t) : SafeStep s t := by
  unfold execResetEnd at ht
  split at ht <;> cases ht
  · exact endReset_safe s _ low emerg
  · exact .refl s

theorem execRecordRead_safe {b : List Byte} (ht : execRecordRead b s = .next t) : SafeStep s t := by
  refine takeEvent_safe ht ?_
  split
  · exact .refl s
  · next k hk =>
    split
    · exact (setArea_safe s k _).trans (settleRecord_safe (s := setArea k _ s) (mode_of_reading hk) k b _)
    · exact .refl s

theorem execUnreadable_safe (ht : execUnreadable s = .next t) : SafeStep s t := by
  refine takeEvent_safe ht ?_
  split
  · exact .refl s
  · next k hk => exact settleRecord_safe (mode_of_reading hk) k [] _

theorem input_tidy (s : State) (v : Bool) : Tidy s { s with mc.emergInput := v } := .of_same rfl rfl rfl rfl rfl

theorem supply_tidy (s : State) (v : Supply) : Tidy s { s with mc.supply := v } := .of_same rfl rfl rfl rfl rfl

theorem execSupplyFalls_safe (ht : execSupplyFalls s = .next t) : SafeStep s t := by
  refine takeEvent_safe ht ?_
  split
  · exact ((supply_tidy s _).trans (raise_same _ _ _).tidy).safe
  · exact .refl s

theorem execSupplyRises_safe (ht : execSupplyRises s = .next t) : SafeStep s t := by
  refine takeEvent_safe ht ?_
  split
  · exact ((supply_tidy s _).trans (clear_same _ _ _).tidy).safe
  · exact .refl s

theorem execMeasurementCompletion_safe {r : Reading} (ht : execMeasurementCompletion r s = .next t) : SafeStep s t := by
  refine takeEvent_safe ht ?_
  split
  · exact .refl s
  · split
    · exact (completeMeasurement_tidy s _ r).safe
    · exact .refl s

theorem execEmptyRoundExpiry_safe (ht : execEmptyRoundExpiry s = .next t) : SafeStep s t := by
  refine takeEvent_safe ht ?_
  split
  · exact ((endRound_tidy s).trans (arrival_tidy _)).safe
  · exact .refl s

theorem relayDone_tidy (s : State) (n : LineNo) : Tidy s (relayDone n s) := by
  have moved : ∀ u : State, Tidy u { u with move := u.move.map (·.filter (· ≠ n)) } := fun u => .of_same rfl rfl rfl rfl rfl
  exact (((setLine_tidy s n _).trans (arrival_tidy _)).trans (moved _)).trans (reportMove_tidy _)

theorem execRelayCompletion_safe {n : LineNo} (ht : execRelayCompletion n s = .next t) : SafeStep s t := by
  refine takeEvent_safe ht ?_
  split
  · exact (relayDone_tidy s n).safe
  · exact .refl s

theorem expireRetry_tidy (s : State) (n : LineNo) : Tidy s (expireRetry n s) := by
  unfold expireRetry; dsimp only; split
  · exact (setLine_tidy s n _).trans (setLine_tidy _ n _)
  · exact (setLine_tidy s n _).trans (startProbe_tidy arrival_tidy _ n)

theorem execRetryExpiry_safe {n : LineNo} (ht : execRetryExpiry n s = .next t) : SafeStep s t := by
  refine takeEvent_safe ht ?_
  split
  · exact ((expireRetry_tidy s n).trans (reportMove_tidy _)).safe
  · exact .refl s

theorem execWriteCompletion_safe (ht : execWriteCompletion s = .next t) : SafeStep s t := by
  have used : SafeStep s { s with freeUses := s.freeUses + 1 } := Tidy.safe (.of_same rfl rfl rfl rfl rfl)
  refine takeEvent_safe ht ?_
  split
  · exact lateReport_safe s
  · next w hw =>
    split
    · exact writeDone_safe hw
    · dsimp only; split
      · exact used.trans (lateReport_safe _)
      · exact used.trans (writeDone_safe hw)

theorem execWriteTimeout_safe (ht : execWriteTimeout s = .next t) : SafeStep s t := by
  refine takeEvent_safe ht ?_
  split
  · next hw => exact writeTimedOut_safe hw
  · exact .refl s

/-! ### Every command -/

theorem exec_safe (c : Instr) (ht : exec c s = .next t) : SafeStep s t := by
  cases c with
  | status p _ b => exact tidyRequest_safe (act := fun s => (s, statusReply p s)) ht (.refl s)
  | identify p _ b => exact tidyRequest_safe (act := fun s => (s, identifyReply p)) ht (.refl s)
  | readLine p _ b =>
    unfold exec execReadLine at ht
    exact tidyRequest_safe ht (by split <;> exact .refl s)
  | readAmp p _ b =>
    unfold exec execReadAmp at ht
    exact tidyRequest_safe ht (by split <;> exact .refl s)
  | readRecord p _ b =>
    unfold exec execReadRecord at ht
    exact tidyRequest_safe ht (by split <;> exact .refl s)
  | listRecords p _ b => exact tidyRequest_safe (act := fun s => (s, listReply p (byteAt b 0) s)) ht (.refl s)
  | readQueue p _ b =>
    exact tidyRequest_safe (act := fun s => (s, ⟨.ok, channelReport s.chan ++ changeoverReport s⟩)) ht (.refl s)
  | listen p _ b => exact execListen_safe ht
  | leave p _ b => exact execLeave_safe ht
  | setNotify p _ b => exact execSetNotify_safe ht
  | fetch p _ b => exact execFetch_safe ht
  | peek p _ b => exact tidyRequest_safe (act := fun s => (s, peekReply p s)) ht (.refl s)
  | done p _ b => exact execDone_safe ht
  | doneClass p _ b => exact execDoneClass_safe ht
  | readCompletion p _ b => exact execReadCompletion_safe ht
  | resetPort p _ b => exact execResetPort_safe ht
  | ack p _ b => exact execAck_safe ht
  | ackAll p _ b =>
    unfold exec execAckAll at ht
    exact tidyRequest_safe ht (foldl_sameButTable _ (fun s k => acknowledge_same s k p) _ s).tidy
  | isolate p _ b => exact lineRequest_safe ht (isolateLine_tidy s)
  | restore p tag b => exact lineRequest_safe ht fun n => restoreLine_tidy s n p tag
  | enableLine p _ b => exact lineRequest_safe ht (enableLine_tidy s)
  | disableLine p _ b => exact lineRequest_safe ht (disableLine_tidy s)
  | configureLine p _ b => exact lineRequest_safe ht fun n => configureLine_tidy s n b
  | learn p tag b => exact lineRequest_safe ht fun n => learnLine_tidy s n p tag
  | cover p tag b => exact ampRequest_safe ht fun k => coverAmp_tidy s k p tag
  | returnLines p tag b => exact ampRequest_safe ht fun k => returnAmp_tidy s k p tag
  | enableAmp p _ b => exact ampRequest_safe ht (enableAmp_tidy s)
  | disableAmp p _ b => exact ampRequest_safe ht (disableAmp_tidy s)
  | configureAmp p _ b => exact ampRequest_safe ht fun k => configureAmp_tidy s k b
  | start p _ b => exact takeRequest_safe ht fun _ => startMode_safe s
  | stop p _ b => exact takeRequest_safe ht fun _ => stopMode_safe s
  | emergencyOn p _ b => exact execEmergencyOn_safe ht
  | emergencyOff p _ b => exact execEmergencyOff_safe ht
  | configureSystem p _ b => exact execConfigureSystem_safe ht
  | store p tag b => exact execStore_safe ht
  | unknownRequest p code tag length => exact execUnknownRequest_safe ht
  | frameAborted p received => exact takeEvent_safe (act := fun s => s) ht (.refl s)
  | powerOn => cases ht; exact beginReset_safe s _
  | brownOut => cases ht; exact beginReset_safe s _
  | resetPin => cases ht; exact beginReset_safe s _
  | resetEnd low emerg => exact execResetEnd_safe ht
  | recordRead b => exact execRecordRead_safe ht
  | unreadable => exact execUnreadable_safe ht
  | emergAsserted =>
    unfold exec execEmergAsserted at ht
    exact takeEvent_safe ht (input_tidy s true).safe
  | emergReleased =>
    unfold exec execEmergReleased at ht
    exact takeEvent_safe ht ((input_tidy s false).trans (endEmergencyIfOver_tidy s _)).safe
  | supplyFalls => exact execSupplyFalls_safe ht
  | supplyRises => exact execSupplyRises_safe ht
  | measurementCompletion r => exact execMeasurementCompletion_safe ht
  | emptyRoundExpiry => exact execEmptyRoundExpiry_safe ht
  | relayCompletion n => exact execRelayCompletion_safe ht
  | retryExpiry n => exact execRetryExpiry_safe ht
  | writeCompletion => exact execWriteCompletion_safe ht
  | writeTimeout => exact execWriteTimeout_safe ht

theorem step_safe (ht : step s = .next t) : SafeStep s t := by
  unfold step at ht
  split at ht
  · cases ht
    exact tick_safe s
  · next c rest _ =>
    have taken : Tidy s { s with pending := rest } := .of_same rfl rfl rfl rfl rfl
    exact taken.safe.trans (exec_safe c ht)

end Sys2Proof.Machine

open Sys2Proof.Machine in
/-- Settles O59: every operation of the blocks keeps the queues, the changeover queue and what the mode promises (`Tidy`); the
entries to a mode and the operations of the store are taken one by one. -/
theorem everyStepKeepsTheQueuesTheModeAndTheStore : Obligations.EveryStepKeepsTheQueuesTheModeAndTheStore := by
  intro s t ht
  obtain ⟨⟨queues, mode, changeover⟩, store⟩ := step_safe ht
  exact ⟨queues, mode, changeover, store⟩
end

section
/-! PROOFS. An amplifier that waits in a queue of the channel keeps its place until it is granted, and a completion places no
subject in the confirm queue (R25, R26, R34). -/

namespace Sys2Proof.Machine

variable {s t u : State} {k : AmpNo} {x : Subject} {m : Measurement}

/-! ### The amplifiers' records (R36) -/

theorem AmpMoved.refl (a : Amp) : AmpMoved a a := ⟨rfl, id⟩

theorem AmpMoved.trans {a b c : Amp} (h : AmpMoved a b) (g : AmpMoved b c) : AmpMoved a c := by
  obtain ⟨hb, hd⟩ := h
  obtain ⟨gc, gd⟩ := g
  refine ⟨?_, hd ∘ gd⟩
  rw [Amp.keptIn, gc, hb]

/-- From `s` to `t` every amplifier record has changed only as the changeover unit changes one. -/
def AmpsMoved (s t : State) : Prop := ∀ k, AmpMoved (s.amp k) (t.amp k)

theorem AmpsMoved.of_amps (h : t.amps = s.amps) : AmpsMoved s t := fun k => by rw [amp_congr h]; exact .refl _

theorem AmpsMoved.refl (s : State) : AmpsMoved s s := .of_amps rfl

theorem AmpsMoved.trans (h : AmpsMoved s t) (g : AmpsMoved t u) : AmpsMoved s u := fun k => (h k).trans (g k)

theorem ampsMoved_grants : GrantClosed AmpsMoved where
  refl := .refl
  trans := .trans
  table h := .of_amps h.amps
  verify _ _ _ := .of_amps rfl
  co _ _ _ := .of_amps rfl
  move _ _ := .of_amps rfl
  amp s k x h j := by
    rw [amp_setAmp]; split
    · next e => rw [e]; exact h
    · exact .refl _
  moveLine s y n := .of_amps (moveLine_work s n y).amps
  settles _ _ := .of_amps rfl
  active _ _ := .of_amps rfl
  freeze _ _ _ _ := .of_amps rfl

theorem ampsMoved_search : SearchClosed AmpsMoved where
  refl := .refl
  trans := .trans
  chan _ _ := .of_amps rfl
  signal s := .of_amps (signalAll_same s).amps
  settles _ _ _ := .of_amps rfl
  active s h := ampsMoved_grants.enterActive s h
  standby _ _ _ _ := .of_amps (signalAll_same _).amps

/-- What follows the delivery of a result changes an amplifier record only as the changeover unit does. -/
theorem beforeSearch_amps (m : Measurement) (s : State) : AmpsMoved s (slotCompleted m (reportMove id s)) :=
  (ampsMoved_grants.reportMove s .refl).trans (ampsMoved_search.slotCompleted m _)

theorem afterResult_amps (m : Measurement) (s : State) : AmpsMoved s (afterResult m s) :=
  (beforeSearch_amps m s).trans (ampsMoved_search.channelFree _)

/-! ### The confirm queue between grants (R26) -/

/-- From `s` to `t` the confirm queue stands. -/
def ConfirmStands (s t : State) : Prop := t.chan.confirm = s.chan.confirm

theorem confirmStands_grants : GrantClosed ConfirmStands where
  refl _ := rfl
  trans h g := Eq.trans g h
  table h := by rw [ConfirmStands, h.chan]
  verify _ _ _ := rfl
  co _ _ _ := rfl
  move _ _ := rfl
  amp _ _ _ _ := rfl
  moveLine s y n := by
    unfold moveLine; dsimp only; split
    · obtain ⟨-, -, confirm, -⟩ := orderSelector_frame (s.setLine n { s.line n with current := y }) n (.bus y)
      exact confirm
    · rfl
  settles _ _ := rfl
  active _ _ := rfl
  freeze _ _ _ _ := rfl

theorem endRound_stands (s : State) : ConfirmStands s (endRound s) := by
  have counted : ConfirmStands s (signalAll (countRound s.roundOver)) := by
    rw [ConfirmStands, (signalAll_same _).chan]
    exact confirmStands_grants.countRound s.roundOver
  rw [endRound_eq]; split
  · exact counted
  · exact counted

theorem takeSlot_stands (s : State) (r : Round) (i : Nat) (x : Target) : ConfirmStands s (takeSlot r i x s) := by
  unfold takeSlot; split
  · rfl
  · rfl

theorem tryScan_stands (s : State) : ConfirmStands s (tryScan s) := by
  unfold tryScan; split
  · rfl
  · split
    · rfl
    · split
      · exact takeSlot_stands s _ _ _
      · unfold tryFirstSlot; split
        · exact endRound_stands s
        · split
          · exact (takeSlot_stands _ _ _ _).trans (endRound_stands s)
          · exact endRound_stands s

theorem tryLearn_stands (s : State) : ConfirmStands s (tryLearn s) := by
  unfold tryLearn; split
  · rfl
  · split
    · rfl
    · rfl

theorem beforeSearch_stands (m : Measurement) (s : State) : ConfirmStands s (slotCompleted m (reportMove id s)) := by
  have reported : ConfirmStands s (reportMove id s) := confirmStands_grants.reportMove s fun _ => rfl
  unfold slotCompleted; split
  · exact (endRound_stands _).trans reported
  · exact reported

/-! ### A subject that is not placed (R26) -/

/-- The subject is neither in the confirm queue nor granted from it. -/
def State.unplaced (s : State) (x : Subject) : Prop :=
  x ∉ s.chan.confirm ∧ ∀ m, s.chan.inFlight = some m → m.cls = .confirm → m.target ≠ x.target

theorem target_subject (x : Subject) : x.target.subject = x := by cases x <;> rfl

theorem target_injective {x y : Subject} (h : x.target = y.target) : x = y := by
  rw [← target_subject x, h, target_subject]

theorem granted_target (s : State) (x : Target) (c : GrantClass) (i : Option Nat) : (s.granted x c i).target = x := by
  cases x <;> rfl

/-- The search puts no subject into the confirm queue (R26). -/
theorem unplaced_search (x : Subject) : SearchKeeps (State.unplaced · x) where
  verify s hf h := by
    obtain hp | ⟨pre, y, rest, hs, hp, hy⟩ := first_or_none s.grantsVerify s.chan.verify
    · rw [tryVerify_none s hp]
      exact h
    · rw [tryVerify_some s hs hp hy]
      refine ⟨h.1, fun m hm hcls => ?_⟩
      obtain rfl := Option.some.inj hm
      rw [granted_cls] at hcls
      cases hcls
  confirm s hf h := by
    obtain hp | ⟨pre, y, rest, hs, hp, hy⟩ := first_or_none s.grantsConfirm s.chan.confirm
    · rw [tryConfirm_none s hp]
      exact ⟨fun hm => h.1 (List.mem_filter.mp hm).1, h.2⟩
    · rw [tryConfirm_some s hs hp hy]
      have absent := h.1
      rw [hs] at absent
      obtain ⟨hpre, hne, hrest⟩ : x ∉ pre ∧ ¬x = y ∧ x ∉ rest := by simpa using absent
      refine ⟨?_, fun m hm _ => ?_⟩
      · simp [hpre, hrest]
      · obtain rfl := Option.some.inj hm
        rw [granted_target]
        exact fun e => hne (target_injective e).symm
  learn s hf h := by
    refine ⟨by rw [tryLearn_stands s]; exact h.1, fun m hm hcls => ?_⟩
    rw [(tryLearn_queues hf).granted m hm] at hcls
    cases hcls
  scan s hf h := by
    refine ⟨by rw [tryScan_stands s]; exact h.1, fun m hm hcls => ?_⟩
    rw [(tryScan_queues hf).granted m hm] at hcls
    cases hcls

/-- What follows the delivery of a result places no subject in the confirm queue. -/
theorem afterResult_unplaced (m : Measurement) (h : x ∉ s.chan.confirm) : (afterResult m s).confirmFollows x = false := by
  have stands := beforeSearch_stands m s
  have kept : (afterResult m s).unplaced x := by
    unfold afterResult
    generalize slotCompleted m (reportMove id s) = v at stands
    refine (unplaced_search x).channelFree (fun u hu => ?_) ⟨?_, fun m hm => by cases hm⟩
    · unfold State.unplaced
      rw [enterStandby_chan]
      exact hu
    · show x ∉ v.chan.confirm
      rw [stands]
      exact h
  have free : (afterResult m s).chan.inFlight ≠ some ((afterResult m s).granted x.target .confirm none) :=
    fun e => kept.2 _ e (granted_cls _ _ _ _) (granted_target _ _ _ _)
  simp [State.confirmFollows, kept.1, free]

/-! ### An amplifier that waits for a confirmation (R26) -/

/-- Amplifier `k` is not DISABLED, and in the confirm queue or granted from it. -/
def State.ampAwaits (s : State) (k : AmpNo) : Prop := (s.amp k).state ≠ .disabled ∧ s.confirmFollows (.amp k) = true

theorem confirmFollows_mem (h : x ∈ s.chan.confirm) : s.confirmFollows x = true := by simp [State.confirmFollows, h]

theorem mem_confirm_of_follows (hf : s.chan.inFlight = none) (h : s.confirmFollows x = true) : x ∈ s.chan.confirm := by
  simpa [State.confirmFollows, hf] using h

theorem State.ampAwaits.of_stands (h : s.ampAwaits k) (hf : s.chan.inFlight = none) (moved : AmpsMoved s t)
    (stands : ConfirmStands s t) : t.ampAwaits k :=
  ⟨fun e => h.1 ((moved k).2 e), confirmFollows_mem (by rw [stands]; exact mem_confirm_of_follows hf h.2)⟩

/-- The search keeps an amplifier that is not DISABLED in the confirm queue until it grants it (R34). -/
theorem ampAwaits_search (k : AmpNo) : SearchKeeps (State.ampAwaits · k) where
  verify s hf h := by
    have mem := mem_confirm_of_follows hf h.2
    obtain hp | ⟨pre, x, rest, hs, hp, hx⟩ := first_or_none s.grantsVerify s.chan.verify
    · rw [tryVerify_none s hp]
      exact ⟨h.1, confirmFollows_mem mem⟩
    · rw [tryVerify_some s hs hp hx]
      exact ⟨h.1, confirmFollows_mem mem⟩
  confirm s hf h := by
    have mem := mem_confirm_of_follows hf h.2
    have keeps : s.keptInConfirm (.amp k) = true := by simp [State.keptInConfirm, h.1]
    obtain hp | ⟨pre, x, rest, hs, hp, hx⟩ := first_or_none s.grantsConfirm s.chan.confirm
    · rw [tryConfirm_none s hp]
      exact ⟨h.1, confirmFollows_mem (List.mem_filter.mpr ⟨mem, keeps⟩)⟩
    · rw [tryConfirm_some s hs hp hx]
      refine ⟨h.1, ?_⟩
      rw [hs] at mem
      obtain hpre | rfl | hrest : .amp k ∈ pre ∨ .amp k = x ∨ .amp k ∈ rest := by simpa using mem
      · exact confirmFollows_mem (List.mem_append_left _ (List.mem_filter.mpr ⟨hpre, keeps⟩))
      · simp only [State.confirmFollows, Bool.or_eq_true, decide_eq_true_eq]
        exact .inr rfl
      · exact confirmFollows_mem (List.mem_append_right _ hrest)
  learn s hf h := h.of_stands hf (ampsMoved_search.tryLearn s) (tryLearn_stands s)
  scan s hf h := h.of_stands hf (ampsMoved_search.tryScan s) (tryScan_stands s)

theorem afterResult_ampConfirm (m : Measurement) (hd : (s.amp k).state ≠ .disabled) (h : .amp k ∈ s.chan.confirm) :
    (afterResult m s).confirmFollows (.amp k) = true := by
  have moved := beforeSearch_amps m s
  have stands := beforeSearch_stands m s
  unfold afterResult
  generalize slotCompleted m (reportMove id s) = v at moved stands
  refine ((ampAwaits_search k).channelFree (fun u hu => ?_) ⟨fun e => hd ((moved k).2 e), confirmFollows_mem ?_⟩).2
  · have amp : (enterStandby u).amp k = u.amp k := amp_congr (signalAll_same _).amps k
    have follows := hu.2
    refine ⟨by rw [amp]; exact hu.1, ?_⟩
    simp only [State.confirmFollows, Subject.target, State.granted, enterStandby_chan, amp] at follows ⊢
    exact follows
  · show .amp k ∈ v.chan.confirm
    rw [stands]
    exact h

/-! ### An amplifier placed in the verify queue (R25, R37) -/

/-- The amplifier whose verify is waited for is granted next, or waits; the search changes the channel alone (R33). -/
theorem channelFree_verifies (h : .amp k ∈ s.chan.verify) :
    ∃ c, channelFree s = { s with chan := c } ∧ (channelFree s).verifyFollows (.amp k) = true := by
  have free : channelFree s = arrival { s with chan := { s.chan with inFlight := none } } := rfl
  by_cases hm : s.runs = true ∨ s.mc.mode = .stopping
  · obtain hp | ⟨pre, x, rest, hs, hp, hx⟩ := first_or_none s.grantsVerify s.chan.verify
    · exact absurd (hp _ h) (by simp [State.grantsVerify, State.keptInVerify, State.atRest])
    · have granted := arrival_verify (s := { s with chan := { s.chan with inFlight := none } }) rfl hm hs hp hx
      rw [free, granted]
      refine ⟨_, rfl, ?_⟩
      rw [hs] at h
      simp only [State.verifyFollows, Bool.or_eq_true, decide_eq_true_eq]
      obtain hpre | rfl | hrest : .amp k ∈ pre ∨ .amp k = x ∨ .amp k ∈ rest := by simpa using h
      · exact .inl (List.mem_append_left _ (List.mem_filter.mpr ⟨hpre, rfl⟩))
      · exact .inr rfl
      · exact .inl (List.mem_append_right _ hrest)
  · have resting : s.mc.mode = .loading ∨ s.mc.mode = .standby := by
      cases mode : s.mc.mode <;> simp [State.runs, mode] at hm ⊢
    rw [free, arrival_still { s with chan := { s.chan with inFlight := none } } (.inr resting)]
    exact ⟨_, rfl, by simp [State.verifyFollows, h]⟩

/-- A move that is done while the operation verifies is forgotten (R7). -/
theorem reportMove_verifying (arr : Arrive) {o : Operation} (ho : s.co.op = some o) (hp : o.phase = .verifying) :
    ∃ l, reportMove arr s = { s with move := l } := by
  unfold reportMove; split
  · refine ⟨none, ?_⟩
    unfold moveDone
    simp [ho, hp]
  · exact ⟨s.move, rfl⟩

/-- A stale VERIFY result of the amplifier whose verify is waited for changes the channel and the report of a move alone
(R37). -/
theorem afterResult_verifies (hm : m.cls = .verify) (ha : s.awaitsVerify k = true) :
    ∃ c l, afterResult m (placeVerify id (.amp k) s) = { s with chan := c, move := l } ∧
      (afterResult m (placeVerify id (.amp k) s)).verifyFollows (.amp k) = true := by
  obtain ⟨o, ho, phase, -⟩ : ∃ o, s.co.op = some o ∧ o.phase = .verifying ∧ o.verified = k := by
    simpa [State.awaitsVerify, Option.any_eq_true] using ha
  have slot : ∀ u : State, slotCompleted m u = u := fun u => by simp [slotCompleted, State.completesRound, hm]
  have mem := mem_placeVerify_id s (.amp k)
  obtain ⟨l, reported⟩ := reportMove_verifying id (s := placeVerify id (.amp k) s) (by rw [placeVerify_id]; exact ho) phase
  unfold afterResult
  rw [slot, reported]
  obtain ⟨c, exact, follows⟩ := channelFree_verifies (s := { placeVerify id (.amp k) s with move := l }) (k := k) mem
  refine ⟨c, l, ?_, follows⟩
  rw [exact, placeVerify_id]

end Sys2Proof.Machine
end

section
/-! PROOFS. EARTH and AMP results (O50): the delivery, the debounce and the confirm queue behind it. -/

namespace Sys2Proof.Machine

variable {s t u v : State} {n : LineNo} {k : AmpNo} {m : Measurement}

/-! ### EARTH results (R64, R65, R37) -/

/-- An EARTH result works on its line, and places nothing. -/
theorem earthReading_stands (s : State) (n : LineNo) (lc : Code) (trip : Bool) : ConfirmStands s (earthReading n lc trip s) := by
  rw [earthReading_cases]; split
  · rfl
  · dsimp only; split
    · rw [ConfirmStands, (sendEarth_same _ n).chan]; rfl
    · rfl

theorem resultTaken_earthEffect (lc : Code) (trip : Bool) (ht : m.target = .earth n) :
    OnlyLine n s (resultTaken m (.earth lc trip) s) ∧ ConfirmStands s (resultTaken m (.earth lc trip) s) := by
  by_cases he : m.epochCopy = some (s.line n).epoch
  · rw [resultTaken_earth lc trip ht he]
    exact ⟨(onlyLine_closed n).earthReading s lc trip, earthReading_stands s n lc trip⟩
  · rw [resultTaken_staleEarth _ ht he]
    exact ⟨.refl s n, rfl⟩

/-- An EARTH result that is stale, or of a line that is DISABLED or not checked, leaves the line as it stands. -/
theorem line_resultTaken_unchecked (lc : Code) (trip : Bool) (ht : m.target = .earth n)
    (h : m.epochCopy ≠ some (s.line n).epoch ∨ (s.line n).state = .disabled ∨ (s.line n).cfg.earthCheck = false) :
    (resultTaken m (.earth lc trip) s).line n = s.line n := by
  by_cases he : m.epochCopy = some (s.line n).epoch
  · rw [resultTaken_earth lc trip ht he, line_earthReading, if_pos (h.resolve_left (not_not_intro he))]
  · rw [resultTaken_staleEarth _ ht he]

theorem isTrip_iff (threshold : Nat) (lc : Code) (trip : Bool) :
    isTrip threshold lc trip = true ↔ trip = true ∨ 32 * threshold ≤ lc.val := by simp [isTrip]

/-- Any other EARTH result gives its line the code and a step of the debounce. -/
theorem line_resultTaken_checked (lc : Code) (trip : Bool) (ht : m.target = .earth n)
    (he : m.epochCopy = some (s.line n).epoch) (hd : (s.line n).state ≠ .disabled)
    (hc : (s.line n).cfg.earthCheck = true) (code : Code) (hcode : code = if trip then 4095 else lc) :
    ∀ d, d = debounce (s.line n).earth (s.line n).earthCandidate (s.line n).earthCount (requiredEarth (s.line n).cfg)
        (if trip = true ∨ 32 * (s.line n).cfg.threshold ≤ code.val then .leak else .normal) →
      (resultTaken m (.earth lc trip) s).line n = { s.line n with
        lastLc := some code, earth := d.confirmed, earthCandidate := d.candidate, earthCount := d.count } := by
  rintro d rfl
  subst hcode
  rw [resultTaken_earth lc trip ht he, line_earthReading, if_neg (by simp [hd, hc])]
  simp only [Line.earthed, effectiveLc, isTrip_iff]

/-! ### SCAN and CONFIRM results of an amplifier (R75, R37) -/

/-- A stale result of an amplifier places it where its debounce counts (R37). -/
theorem resultTaken_staleAmp (r : Reading) (ht : m.target = .amp k) (hc : m.cls = .scan ∨ m.cls = .confirm)
    (he : m.stampCopy ≠ some (s.amp k).stamp) : resultTaken m r s = placeAmpIfCounting k s := by
  have stale : s.isStale m = true := by simpa [State.isStale, ht] using he
  obtain hc | hc := hc <;> simp [resultTaken, stale, placeStale, hc, ht]

/-- Any other result of an amplifier is delivered (R36). -/
theorem resultTaken_amp (ac : Code) (masked prot : Bool) (ht : m.target = .amp k) (hc : m.cls = .scan ∨ m.cls = .confirm)
    (he : m.stampCopy = some (s.amp k).stamp) :
    resultTaken m (.amp ac masked prot) s = ampReading id k ac masked prot s := by
  have fresh : s.isStale m = false := by simp [State.isStale, ht, he]
  obtain hc | hc := hc <;> simp [resultTaken, fresh, deliver, hc, ht]

theorem placeAmpIfCounting_frame (s : State) (k : AmpNo) : KeepsLines s (placeAmpIfCounting k s) ∧
    (placeAmpIfCounting k s).amps = s.amps := by
  unfold placeAmpIfCounting; split
  · rw [placeConfirm_eq]; exact ⟨.of_lines rfl, rfl⟩
  · exact ⟨.refl s, rfl⟩

/-- An amplifier that counts is placed, and one that does not is not (R26, R75). -/
theorem afterResult_ampPlaced (m : Measurement) (v : State) (k : AmpNo) :
    AmpsMoved v (afterResult m (placeAmpIfCounting k v)) ∧
    (v.runs = true → (v.amp k).state ≠ .disabled → 0 < (v.amp k).count →
      (afterResult m (placeAmpIfCounting k v)).confirmFollows (.amp k) = true) ∧
    ((v.amp k).count = 0 → .amp k ∉ v.chan.confirm →
      (afterResult m (placeAmpIfCounting k v)).confirmFollows (.amp k) = false) := by
  have amps := (placeAmpIfCounting_frame v k).2
  refine ⟨(AmpsMoved.of_amps amps).trans (afterResult_amps m _), fun hr hd hc => ?_, fun hc hq => ?_⟩
  · refine afterResult_ampConfirm m (by rw [amp_congr amps]; exact hd) ?_
    rw [placeAmpIfCounting, if_pos hc]
    exact mem_placeConfirm v _ hr
  · rw [placeAmpIfCounting, if_neg (by omega)]
    exact afterResult_unplaced m hq

/-- A result that judges nothing: the amplifier counts as before (R37, R75). -/
theorem unjudged_completed (ac : Code) (masked prot : Bool) (ht : m.target = .amp k) (hc : m.cls = .scan ∨ m.cls = .confirm)
    (h : m.stampCopy ≠ some (s.amp k).stamp ∨ (s.amp k).state = .disabled ∨ masked = true) :
    ∀ t, t = afterResult m (resultTaken m (.amp ac masked prot) s) →
      AmpsMoved s t ∧
      (s.runs = true → (s.amp k).state ≠ .disabled → 0 < (s.amp k).count → t.confirmFollows (.amp k) = true) ∧
      ((s.amp k).count = 0 → .amp k ∉ s.chan.confirm → t.confirmFollows (.amp k) = false) := by
  rintro t rfl
  have placed := afterResult_ampPlaced m s k
  by_cases he : m.stampCopy = some (s.amp k).stamp
  · rw [resultTaken_amp ac masked prot ht hc he, ampReading_cases]
    split
    · next hd => exact ⟨afterResult_amps m s, fun _ on => absurd hd on, fun _ => afterResult_unplaced m⟩
    · next hd =>
      rw [if_pos ((h.resolve_left (not_not_intro he)).resolve_left hd)]
      exact placed
  · rw [resultTaken_staleAmp _ ht hc he]
    exact placed

/-- What a confirmed condition or a step of SUSPECT does places nothing in the confirm queue (R77 to R81). -/
theorem ampStepped_kept (w : State) (k : AmpNo) (d : Debounce Condition) (snap : Option Snapshot) :
    AmpsMoved w (ampStepped id k d snap w) ∧ ConfirmStands w (ampStepped id k d snap w) ∧
      (ampStepped id k d snap w).runs = w.runs :=
  ⟨ampsMoved_grants.ampStepped w .refl k d snap, confirmStands_grants.ampStepped w (fun _ => rfl) k d snap,
    (tidy_grants.ampStepped w .refl k d snap).runs⟩

/-- A usable result of an amplifier that is not DISABLED steps the debounce (R75 to R81). -/
theorem judged_completed (ac : Code) (prot : Bool) (ht : m.target = .amp k) (hc : m.cls = .scan ∨ m.cls = .confirm)
    (he : m.stampCopy = some (s.amp k).stamp) (hd : (s.amp k).state ≠ .disabled) :
    ∀ t, t = afterResult m (resultTaken m (.amp ac false prot) s) →
      (∀ j, j ≠ k → AmpMoved (s.amp j) (t.amp j)) ∧ AmpMoved ((s.amp k).judged ac prot) (t.amp k) ∧
      (s.runs = true → 0 < ((s.amp k).judged ac prot).count → t.confirmFollows (.amp k) = true) ∧
      (((s.amp k).judged ac prot).count = 0 → .amp k ∉ s.chan.confirm → t.confirmFollows (.amp k) = false) := by
  rintro t rfl
  rw [resultTaken_amp ac false prot ht hc he, ampReading_cases, if_neg hd, if_neg Bool.false_ne_true]
  -- the judged record, and the step of its debounce
  have judged : (s.setAmp k ((s.amp k).judged ac prot)).amp k = (s.amp k).judged ac prot := amp_setAmp_same s k _
  have others : ∀ j, j ≠ k → (s.setAmp k ((s.amp k).judged ac prot)).amp j = s.amp j := fun j => amp_setAmp_ne s k j _
  have runs : (s.setAmp k ((s.amp k).judged ac prot)).runs = s.runs := rfl
  have queue : (s.setAmp k ((s.amp k).judged ac prot)).chan = s.chan := rfl
  generalize s.setAmp k ((s.amp k).judged ac prot) = w at judged others runs queue
  obtain ⟨moved, stands, stepRuns⟩ := ampStepped_kept w k ((s.amp k).stepCondition ac prot) (some (.amp ac prot))
  generalize ampStepped id k ((s.amp k).stepCondition ac prot) (some (.amp ac prot)) w = v at moved stands stepRuns
  obtain ⟨kept, counts, rests⟩ := afterResult_ampPlaced m v k
  have own : AmpMoved ((s.amp k).judged ac prot) (v.amp k) := judged ▸ moved k
  have count : (v.amp k).count = ((s.amp k).judged ac prot).count := by rw [own.1]
  refine ⟨fun j hj => others j hj ▸ (moved j).trans (kept j), own.trans (kept k), fun hr h => ?_, fun h hq => ?_⟩
  · exact counts (by rw [stepRuns, runs, hr]) (fun e => hd (own.2 e)) (by rw [count]; exact h)
  · exact rests (by rw [count]; exact h) (by rw [stands, queue]; exact hq)

theorem resultTaken_amp_keeps (ac : Code) (masked prot : Bool) (ht : m.target = .amp k)
    (hc : m.cls = .scan ∨ m.cls = .confirm) : KeepsLines s (resultTaken m (.amp ac masked prot) s) := by
  by_cases he : m.stampCopy = some (s.amp k).stamp
  · rw [resultTaken_amp ac masked prot ht hc he]
    exact ampReading_keeps (fun s => .refl s) k ac masked prot s
  · rw [resultTaken_staleAmp _ ht hc he]
    exact (placeAmpIfCounting_frame s k).1

/-- A stale VERIFY result of the amplifier whose verify is waited for (R37). -/
theorem resultTaken_staleVerify (r : Reading) (ht : m.target = .amp k) (hc : m.cls = .verify)
    (he : m.stampCopy ≠ some (s.amp k).stamp) (ha : s.awaitsVerify k = true) :
    resultTaken m r s = placeVerify id (.amp k) s := by
  have stale : s.isStale m = true := by simpa [State.isStale, ht] using he
  simp [resultTaken, stale, placeStale, hc, ht, ha]

/-- The step of the debounce as the statement writes it. -/
theorem judged_eq (a : Amp) (ac : Code) (prot : Bool) : ∀ d, d = debounce a.condition a.candidate a.count
      (requiredCondition a.cfg) (if a.cfg.amin ≤ ac.val ∧ prot = false then .normal else .fail) →
    a.judged ac prot = { a with
      lastAc := some ac, lastProt := some prot, condition := d.confirmed, candidate := d.candidate, count := d.count } := by
  rintro d rfl
  simp [Amp.judged, Amp.stepCondition, normalReading]

end Sys2Proof.Machine

open Sys2Proof.Machine in
/-- Settles O50: the three kinds of result, by what is taken at the delivery and what the completion leaves of it. -/
theorem earthAndAmpReadingsStepTheirDebounce : Obligations.EarthAndAmpReadingsStepTheirDebounce := by
  refine ⟨fun n lc trip s m hf hreset ht => ?_, fun k ac masked prot s m hf hreset ht hc he ha => ?_,
    fun k ac masked prot s m hf hreset ht hc => ?_⟩
  · obtain ⟨only, stands⟩ := resultTaken_earthEffect (s := s) lc trip ht
    refine ⟨_, completion_taken hf hreset (by rw [ht]; rfl), afterResult_store m _ s, fun x hx => ?_,
      fun k hk => (only.afterResult k hk).1,
      fun h => (afterResult_self only.work.runs (line_resultTaken_unchecked lc trip ht h)).1,
      fun he hd hc code hcode d hdeb => ?_⟩
    · by_contra absent
      rw [afterResult_unplaced m (by rw [stands]; exact absent)] at hx
      cases hx
    · have line := line_resultTaken_checked lc trip ht he hd hc code hcode d hdeb
      exact (afterResult_line only.work.runs (by rw [line]; exact .refl _) rfl).1
  · obtain ⟨c, l, exact, follows⟩ := afterResult_verifies hc ha
    refine ⟨_, completion_taken hf hreset (by rw [ht]; rfl), afterResult_store m _ s, ?_⟩
    rw [resultTaken_staleVerify _ ht hc he ha]
    refine ⟨follows, ?_⟩
    rw [exact]
    exact ⟨fun n => rfl, fun j => rfl, fun _ => ⟨rfl, rfl, rfl⟩⟩
  · have lines : ∀ n, (s.line n).keptIn ((afterResult m (resultTaken m (.amp ac masked prot) s)).line n) := fun n =>
      ((resultTaken_amp_keeps ac masked prot ht hc).trans (afterResult_rested m _).line n).keptIn
    refine ⟨_, completion_taken hf hreset (by rw [ht]; rfl), afterResult_store m _ s, lines, ?_⟩
    by_cases h : m.stampCopy ≠ some (s.amp k).stamp ∨ (s.amp k).state = .disabled ∨ masked = true
    · obtain ⟨moved, counts, rests⟩ := unjudged_completed ac masked prot ht hc h _ rfl
      refine ⟨fun j _ => (moved j).1, fun _ => ⟨(moved k).1, counts, rests⟩, fun he hd hm => ?_⟩
      simp [he, hd, hm] at h
    · obtain ⟨he, hd, hm⟩ : m.stampCopy = some (s.amp k).stamp ∧ (s.amp k).state ≠ .disabled ∧ masked = false := by
        simpa using h
      subst hm
      obtain ⟨others, own, counts, rests⟩ := judged_completed ac prot ht hc he hd _ rfl
      refine ⟨fun j hj => (others j hj).1, fun g => absurd g h, fun _ _ _ d hdeb => ?_⟩
      rw [judged_eq _ ac prot d hdeb] at own counts rests
      exact ⟨own.1, counts, rests⟩
end

section
/-! PROOFS. The filter as a step toward its reading, and its convergence (O55). -/

namespace Sys2Proof.Machine

/-! ### The step of the filter (R43) -/

/-- A difference divided by the filter's divisor and rounded up is no more than the difference. -/
theorem ceilDiv_le (x : Nat) {y : Nat} (hy : 0 < y) : ceilDiv x y ≤ x := by
  unfold ceilDiv
  rw [Nat.div_le_iff_le_mul_add_pred hy]
  have := Nat.le_mul_of_pos_left x hy
  omega

/-- Rounding up leaves no difference without a step. -/
theorem ceilDiv_pos {x y : Nat} (hx : 0 < x) (hy : 0 < y) : 0 < ceilDiv x y := by
  unfold ceilDiv
  exact Nat.div_pos (by omega) hy

/-- The ohms between two impedances. -/
def ohmsApart (f z : Nat) : Nat := max f z - min f z

/-- The filter's step from one usable value: toward the reading, by at least one ohm where it is not there, and never past it. -/
theorem filterZ_step (shift : Nat) {z f : Nat} (hz : z < openZ) (hf : f < openZ) :
    (f = z ∧ filterZ (some f) shift z = z) ∨
    (f < z ∧ f < filterZ (some f) shift z ∧ filterZ (some f) shift z ≤ z) ∨
    (z < f ∧ filterZ (some f) shift z < f ∧ z ≤ filterZ (some f) shift z) := by
  have step : filterZ (some f) shift z =
      if f ≤ z then f + ceilDiv (z - f) (2 ^ shift) else f - ceilDiv (f - z) (2 ^ shift) := by
    simp [filterZ, hz.ne, hf.ne]
  have divisor : 0 < 2 ^ shift := Nat.two_pow_pos shift
  rw [step]
  obtain below | rfl | above := Nat.lt_trichotomy f z
  · have le := ceilDiv_le (z - f) divisor
    have pos := ceilDiv_pos (Nat.sub_pos_of_lt below) divisor
    rw [if_pos below.le]
    omega
  · have le := ceilDiv_le (f - f) divisor
    rw [if_pos le_rfl]
    omega
  · have le := ceilDiv_le (f - z) divisor
    have pos := ceilDiv_pos (Nat.sub_pos_of_lt above) divisor
    rw [if_neg above.not_ge]
    omega

/-- Without a value the filter takes the reading (R43, R44). -/
theorem filterZ_reseeded (shift z : Nat) : filterZ none shift z = z := by
  unfold filterZ; split
  · next h => exact h.symm
  · rfl

/-- From the open value the filter takes the reading (R43). -/
theorem filterZ_reopened (shift z : Nat) : filterZ (some openZ) shift z = z := by
  unfold filterZ; split
  · next h => exact h.symm
  · simp only [↓reduceIte]

/-- With shift 0 the filter takes the reading (R43). -/
theorem filterZ_unfiltered {z f : Nat} (hz : z < openZ) (hf : f < openZ) : filterZ (some f) 0 z = z := by
  have whole : ∀ x, ceilDiv x (2 ^ 0) = x := fun x => by simp [ceilDiv]
  simp only [filterZ, hz.ne, hf.ne, ↓reduceIte, whole]
  split <;> omega

/-- Each reading brings the filter an ohm nearer, until it rests on the reading. -/
theorem repeat_filterZ (shift : Nat) {z f : Nat} (hz : z < openZ) (hf : f < openZ) (k : Nat) :
    Nat.repeat (fun x => filterZ (some x) shift z) k f < openZ ∧
      ohmsApart (Nat.repeat (fun x => filterZ (some x) shift z) k f) z ≤ ohmsApart f z - k := by
  induction k with
  | zero => exact ⟨hf, Nat.le_refl _⟩
  | succ k ih =>
    obtain ⟨usable, near⟩ := ih
    simp only [Nat.repeat]
    generalize Nat.repeat (fun x => filterZ (some x) shift z) k f = x at usable near
    unfold ohmsApart at *
    obtain ⟨-, e⟩ | ⟨-, up, le⟩ | ⟨-, down, ge⟩ := filterZ_step shift hz usable
    · rw [e]; omega
    · omega
    · omega

end Sys2Proof.Machine

open Sys2Proof.Machine in
/-- Settles O55: a reading brings the filter at least one ohm nearer and never past it, so as many readings as there are ohms
between them bring it to rest. -/
theorem filterMovesTowardTheReadingAndArrives : Obligations.FilterMovesTowardTheReadingAndArrives := by
  intro shift z f
  refine ⟨filterZ_reseeded shift z, if_pos rfl, filterZ_reopened shift z, fun hz hf => ?_⟩
  have step := filterZ_step shift hz hf
  obtain ⟨-, near⟩ := repeat_filterZ shift hz hf (ohmsApart f z)
  refine ⟨by omega, by omega, fun h => ?_, by omega, ?_⟩
  · subst h
    exact filterZ_unfiltered hz hf
  · change Nat.repeat (fun x => filterZ (some x) shift z) (ohmsApart f z) f = z
    generalize Nat.repeat (fun x => filterZ (some x) shift z) (ohmsApart f z) f = x at near
    unfold ohmsApart at near
    omega
end

section
/-! PROOFS. The requests on one line or amplifier that name none, and LEARN (O22, O32). -/

namespace Sys2Proof.Machine

variable {s : State} {q : Request} {p : Port}

/-! ### A number that names no line or amplifier (1.6) -/

theorem lineRequest_unnamed {payload : List Byte} (ht : s.takes q p payload) (h : 16 ≤ byteAt payload 0)
    (act : LineNo → State → State × Reply) :
    takeRequest q p payload (onLine payload act) s = .next (s.answer p (bare .badSubject)) := by
  have unnamed : onLine payload act s = (s, bare .badSubject) := by
    simp [onLine, lineNo?, Nat.not_lt.mpr h]
  rw [takeRequest_taken s ht, unnamed]

theorem ampRequest_unnamed {payload : List Byte} (ht : s.takes q p payload) (h : 6 ≤ byteAt payload 0)
    (act : AmpNo → State → State × Reply) :
    takeRequest q p payload (onAmp payload act) s = .next (s.answer p (bare .badSubject)) := by
  have unnamed : onAmp payload act s = (s, bare .badSubject) := by
    simp [onAmp, ampNo?, Nat.not_lt.mpr h]
  rw [takeRequest_taken s ht, unnamed]

/-! ### LEARN (R55) -/

/-- What LEARN writes before its arrival: the empty accumulator and the job (R55). -/
def learnBegun (p : Port) (tag : Byte) (n : LineNo) (s : State) : State :=
  { s.setLine n { s.line n with learn := some ⟨0, 0⟩ } with
    chan := { s.chan with job := some ⟨n, s.requester p tag .learn, 0⟩ } }

theorem startLearn_eq (p : Port) (tag : Byte) (n : LineNo) (s : State) :
    startLearn p tag n s = arrival (learnBegun p tag n s) := rfl

/-- LEARN accepted (R55). -/
theorem learnLine_accepted (p : Port) (tag : Byte) (n : LineNo) (he : s.emergency = false) (hr : s.runs = true)
    (hj : s.chan.job = none) (hs : (s.line n).state = .connected) :
    learnLine p tag n s = accept p (arrival (learnBegun p tag n s)) := by
  simp [learnLine, he, hr, hj, hs, startLearn_eq]

end Sys2Proof.Machine

open Sys2Proof.Machine in
/-- Settles O22: both kinds of request look up the number before anything of their own. -/
theorem requestsRefuseANumberThatNamesNoLineOrAmplifier : Obligations.RequestsRefuseANumberThatNamesNoLineOrAmplifier := by
  refine ⟨fun q p tag payload s ht hq h => ?_, fun q p tag payload s ht hq h => ?_⟩
  · simp only [List.mem_cons, List.not_mem_nil, or_false] at hq
    obtain rfl | rfl | rfl | rfl | rfl | rfl := hq <;> exact lineRequest_unnamed ht h _
  · simp only [List.mem_cons, List.not_mem_nil, or_false] at hq
    obtain rfl | rfl | rfl | rfl | rfl := hq <;> exact ampRequest_unnamed ht h _

open Sys2Proof.Machine in
/-- Settles O32: the refusals in their order, and an acceptance that makes one arrival, which is none while a measurement is in
flight. -/
theorem learnChecksInOrderAndStartsTheJob : Obligations.LearnChecksInOrderAndStartsTheJob := by
  intro p tag n s ht
  have taken := lineRequest_taken s n ht (learnLine p tag)
  change exec (.learn p tag (linePayload n)) s = _ at taken
  rw [taken]
  refine ⟨fun he => ?_, fun he => ⟨fun hr => ?_, fun hr => ⟨fun hj => ?_, fun hj => ⟨fun hs => ?_, fun hs => ?_⟩⟩⟩⟩
  · simp [learnLine, he, bare]
  · simp [learnLine, he, hr, bare]
  · simp [learnLine, he, hr, hj, bare]
  · simp [learnLine, he, hr, hj, hs, bare]
  · rw [learnLine_accepted p tag n he hr hj hs, accept_answer]
    refine ⟨_, rfl, by simp, ?_, fun hf => ?_⟩
    · exact (arrival_block (learnBegun p tag n s)).store
    · rw [arrival_inFlight (learnBegun p tag n s) hf]
      rfl
end

section
/-! PROOFS. The configuration within its stored ranges and the learn accumulators in order, through the work of every block
(O58). -/

namespace Sys2Proof.Machine

variable {s t u : State}

/-! ### Records and states in range (R57, R163) -/

/-- A line's configuration lies within the stored ranges, and its accumulator holds fewer than eight samples. -/
def Line.inRange (l : Line) : Prop := lineConfigOk l.cfg = true ∧ l.learnOk = true

/-- Every configuration lies within the stored ranges, and every accumulator is in order. -/
structure InRange (s : State) : Prop where
  lines : ∀ n, (s.line n).inRange
  amps : ∀ k, ampConfigOk (s.amp k).cfg = true
  sys : systemConfigOk s.mc.sys = true

theorem configOk_iff : s.configOk = true ↔ InRange s := by
  simp only [State.configOk, Bool.and_eq_true, List.all_eq_true]
  constructor
  · rintro ⟨⟨lines, amps⟩, sys⟩
    exact ⟨fun n => lines n (mem_allLines n), fun k => amps k (mem_allAmps k), sys⟩
  · rintro ⟨lines, amps, sys⟩
    exact ⟨⟨fun n _ => lines n, fun k _ => amps k⟩, sys⟩

theorem Line.inRange.unlearned {l : Line} (h : l.inRange) : ({ l with learn := none } : Line).inRange := ⟨h.1, rfl⟩

/-- A new configuration in range for a line. -/
theorem Line.inRange.configured {l : Line} (h : l.inRange) {c : LineConfig} (hc : lineConfigOk c = true) :
    ({ l with cfg := c } : Line).inRange := ⟨hc, h.2⟩

/-- From `s` to `t` all stays in range. -/
def RangeKept (s t : State) : Prop := InRange s → InRange t

theorem RangeKept.refl (s : State) : RangeKept s s := id

theorem RangeKept.trans (h : RangeKept s t) (g : RangeKept t u) : RangeKept s u := g ∘ h

theorem RangeKept.of_work (w : LineWork s t) (h : ∀ n, (s.line n).inRange → (t.line n).inRange) : RangeKept s t :=
  fun hs => ⟨fun n => h n (hs.lines n), fun k => by rw [amp_congr w.amps]; exact hs.amps k, by rw [w.mc]; exact hs.sys⟩

theorem RangeKept.of_same (hl : t.lines = s.lines) (ha : t.amps = s.amps) (hs : t.mc.sys = s.mc.sys) : RangeKept s t :=
  fun h => ⟨fun n => by rw [line_congr hl]; exact h.lines n, fun k => by rw [amp_congr ha]; exact h.amps k,
    by rw [hs]; exact h.sys⟩

theorem SameButTable.range (h : SameButTable s t) : RangeKept s t := .of_same h.lines h.amps (by rw [h.mc])

/-- The caller proves `h` by a tactic, which runs when the record is known: a term would make it the record of `s`. -/
theorem setLine_range (s : State) (n : LineNo) (l : Line) (h : (s.line n).inRange → l.inRange) :
    RangeKept s (s.setLine n l) := by
  refine .of_work (setLine_work s n l) fun m hm => ?_
  rw [line_setLine]; split
  · next e => subst e; exact h hm
  · exact hm

theorem setAmp_range (s : State) (k : AmpNo) (x : Amp) (h : ampConfigOk (s.amp k).cfg = true → ampConfigOk x.cfg = true) :
    RangeKept s (s.setAmp k x) := by
  refine fun hs => ⟨hs.lines, fun j => ?_, hs.sys⟩
  rw [amp_setAmp]; split
  · exact h (hs.amps k)
  · exact hs.amps j

theorem mapLines_range (s : State) (f : Line → Line) (h : ∀ l, l.inRange → (f l).inRange) :
    RangeKept s (s.mapLines f) :=
  .of_work (mapLines_work s f) fun n hn => by rw [line_mapLines]; exact h _ hn

theorem foldl_range {α : Type} (f : State → α → State) (h : ∀ s a, RangeKept s (f s a)) (l : List α) (s : State) :
    RangeKept s (l.foldl f s) := by
  induction l generalizing s with
  | nil => exact .refl s
  | cons a l ih => exact (h s a).trans (ih _)

/-! ### Learn jobs, orders and moves -/

theorem endLearn_range (s : State) (o : CompletionOutcome) : RangeKept s (endLearn o s) := by
  refine .of_work (endLearn_work s o) fun n hn => ?_
  obtain e | e := line_endLearn s o n <;> rw [e]
  · exact hn
  · exact hn.unlearned

theorem abortLearnOf_range (s : State) (n : LineNo) : RangeKept s (abortLearnOf n s) := by
  unfold abortLearnOf; split
  · split
    · exact endLearn_range s _
    · exact .refl s
  · exact .refl s

/-- An order touches no configuration, and of an accumulator it makes nothing but none (R5, R58). -/
theorem orderSelector_range (s : State) (n : LineNo) (pos : Selector) : RangeKept s (orderSelector n pos s) := by
  refine .of_work (orderSelector_work s n pos) fun m hm => ?_
  rw [line_orderSelector_eq]; split
  · next e =>
    subst e
    refine ⟨by rw [State.ordered, sentTo_cfg]; exact hm.1, ?_⟩
    unfold State.ordered Line.learnOk; dsimp only; split
    · rfl
    · exact hm.2
  · exact hm

theorem moveLine_range (s : State) (y : AmpNo) (n : LineNo) : RangeKept s (moveLine y s n) := by
  unfold moveLine; dsimp only; split
  · exact (setLine_range s n _ (by exact id)).trans (orderSelector_range _ n _)
  · exact setLine_range s n _ (by exact id)

/-- The timers freeze as the part goes to STANDBY (R155). -/
theorem frozen_range (s : State) :
    RangeKept s ({ s with mc.mode := .standby }.mapLines fun l => { l with timer := l.timer.freeze }) :=
  (RangeKept.of_same (s := s) (t := { s with mc.mode := .standby }) rfl rfl rfl).trans (mapLines_range _ _ fun _ h => h)

/-- What the changeover unit, the amplifier supervisor and the channel do touches no configuration. -/
theorem range_closed : Closed RangeKept where
  refl := .refl
  trans := .trans
  table h := h.range
  verify _ _ _ := .of_same rfl rfl rfl
  withdraw _ _ := .of_same rfl rfl rfl
  place s k := by rw [placeConfirm_eq]; exact .of_same rfl rfl rfl
  co _ _ := .of_same rfl rfl rfl
  move _ _ := .of_same rfl rfl rfl
  amp s k x hx := setAmp_range s k _ fun h => by rw [hx.1]; exact h
  verifyFails s k _ _ := setAmp_range s k _ (by exact id)
  moveLine := moveLine_range
  settles _ _ _ := .of_same rfl rfl rfl
  active _ _ := .of_same rfl rfl rfl
  freeze s _ _ _ := frozen_range s

theorem range_search : SearchClosed RangeKept := range_closed.search fun _ _ => .of_same rfl rfl rfl

theorem arrival_range (s : State) : RangeKept s (arrival s) := range_search.arrival s

theorem reportMove_range (s : State) : RangeKept s (reportMove arrival s) := range_closed.reportMove s arrival_range

theorem placeVerify_range {arr : Arrive} (ha : ∀ s, RangeKept s (arr s)) (s : State) (x : Subject) :
    RangeKept s (placeVerify arr x s) := by
  unfold placeVerify; split
  · exact .refl s
  · exact (range_search.chan s _).trans (ha _)

theorem placeConfirm_range (s : State) (x : Subject) : RangeKept s (placeConfirm x s) := by
  rw [placeConfirm_eq]; exact range_search.chan s _

/-! ### Readings on a line -/

section Line
variable (s : State) (n : LineNo)

theorem endWaiting_range (o : CompletionOutcome) : RangeKept s (endWaiting n o s) :=
  (setLine_range s n _ (by exact id)).trans (completeIfAny_same _ _ _).table.range

theorem startRetry_range : RangeKept s (startRetry n s) := by rw [startRetry_eq]; exact setLine_range s n _ (by exact id)

theorem endProbe_range (c : IsolationCause) : RangeKept s (endProbe n c s) :=
  (orderSelector_range s n _).trans (setLine_range _ n _ (by exact id))

theorem maskedStep_range : RangeKept s (maskedStep n s) :=
  (setLine_range s n _ (by exact id)).trans (raiseBlind_same _ n).range

theorem usableStep_range : RangeKept s (usableStep n s) := by
  unfold usableStep; split
  · exact (clear_same s _ _).range.trans (setLine_range _ n _ (by exact id))
  · exact .refl s

theorem confirmedChange_range (old : LineClass) : RangeKept s (confirmedChange n old s) := by
  unfold confirmedChange; dsimp only; split
  · exact (orderSelector_range s n _).trans <| (setLine_range _ n _ (by exact id)).trans <|
      (range_search.chan _ _).trans <| (sendClassChange_same _ n _ _).range.trans (startRetry_range _ n)
  · exact (sendClassChange_same s n _ _).range

theorem classificationReading_range (vc ic : Code) (ov : Bool) : RangeKept s (classificationReading n vc ic ov s) := by
  have counting : ∀ u : State, RangeKept u (placeLineIfCounting n u) := by
    intro u; unfold placeLineIfCounting; split
    · exact placeConfirm_range u _
    · exact .refl u
  have judged : RangeKept s (classJudged n vc ic s) := by
    unfold classJudged; dsimp only; split
    · exact (setLine_range s n _ (by exact id)).trans (confirmedChange_range _ n _)
    · exact setLine_range s n _ (by exact id)
  by_cases h : (s.line n).state = .connected
  · rw [classificationReading_cases s n vc ic ov h]
    refine .trans ?_ (counting _)
    split
    · exact maskedStep_range s n
    · exact judged.trans (usableStep_range _ n)
  · rw [classificationReading, if_pos h]
    exact .refl s

theorem probeSucceeds_range : RangeKept s (probeSucceeds n s) :=
  (orderSelector_range s n _).trans <| (setLine_range _ n _ (by exact id)).trans <| (clearClass_same _ n _).range.trans <|
    (setLine_range _ n _ (by exact id)).trans (endWaiting_range _ n _)

theorem probeFails_range : RangeKept s (probeFails n s) := by
  have failed : ∀ u : State, RangeKept u (failedClass n u) := by
    intro u; unfold failedClass; split
    · exact .refl u
    · exact (setLine_range u n _ (by exact id)).trans (sendClassChange_same _ n _ _).range
  have lost : RangeKept s (probeLost n s) :=
    (endProbe_range s n _).trans <| (setLine_range _ n _ (by exact id)).trans <| (failed _).trans <|
      (setLine_range _ n _ (by exact id)).trans (endWaiting_range _ n _)
  rw [probeFails_eq]; dsimp only; split
  · exact lost.trans (setLine_range _ n _ (by exact id))
  · exact lost.trans (startRetry_range _ n)

theorem probeReading_range (vc ic : Code) (ov : Bool) : RangeKept s (probeReading id n vc ic ov s) := by
  by_cases h : (s.line n).state = .probing
  · have taken : RangeKept s (probeTaken n vc ic s) := (setLine_range s n _ (by exact id)).trans (usableStep_range _ n)
    rw [probeReading_cases s n vc ic ov h]
    split
    · exact (maskedStep_range s n).trans (placeVerify_range .refl _ _)
    · dsimp only; split
      · exact taken.trans (probeFails_range _ n)
      · split
        · exact (taken.trans (setLine_range _ n _ (by exact id))).trans (probeSucceeds_range _ n)
        · exact (taken.trans (setLine_range _ n _ (by exact id))).trans (placeVerify_range .refl _ _)
  · rw [probeReading, if_pos h]
    exact .refl s

theorem earthReading_range (lc : Code) (trip : Bool) : RangeKept s (earthReading n lc trip s) := by
  rw [earthReading_cases]; split
  · exact .refl s
  · dsimp only; split
    · exact (setLine_range s n _ (by exact id)).trans (sendEarth_same _ n).range
    · exact setLine_range s n _ (by exact id)

end Line

/-! ### Learn samples (R56, R57) -/

/-- A usable sample is at most 65534 (R42). -/
theorem rawImpedance_le {vc ic : Code} {gain : Nat} (h : rawImpedance vc ic gain ≠ openZ) :
    rawImpedance vc ic gain ≤ 65534 := by
  unfold rawImpedance at h ⊢
  split at h
  · exact absurd rfl h
  · next hi => rw [if_neg hi]; exact Nat.min_le_right _ _

/-- The accumulator of a line as a learn sample finds it (R56). -/
theorem Line.inRange.accumulator {l : Line} (h : l.inRange) :
    (l.learn.getD ⟨0, 0⟩).count < 8 ∧ (l.learn.getD ⟨0, 0⟩).sum ≤ 65534 * (l.learn.getD ⟨0, 0⟩).count := by
  have learn := h.2
  cases hl : l.learn with
  | none => simp
  | some a => rw [Line.learnOk, hl] at learn; exact of_decide_eq_true learn

/-- A mean of eight samples above the short floor is a reference in range (R57). -/
theorem learnedReference_range {l : Line} (h : l.inRange) {z : Nat} (hz : z ≤ 65534)
    (hf : ¬learnedReference ((l.learn.getD ⟨0, 0⟩).sum + z) ≤ l.cfg.shortFloor) :
    lineConfigOk { l.cfg with zref := some (learnedReference ((l.learn.getD ⟨0, 0⟩).sum + z)) } = true := by
  obtain ⟨count, sum⟩ := h.accumulator
  have cfg := h.1
  have ref : 1 ≤ learnedReference ((l.learn.getD ⟨0, 0⟩).sum + z) ∧
      learnedReference ((l.learn.getD ⟨0, 0⟩).sum + z) ≤ 65534 := by
    unfold learnedReference at hf ⊢
    omega
  simp only [lineConfigOk, Bool.and_eq_true, Option.all_some, decide_eq_true_eq] at cfg ⊢
  tauto

/-- The end of the job leaves its line without an accumulator, and any other record as it stands (R58). -/
theorem line_endLearn_own (s : State) (n m : LineNo) (o : CompletionOutcome) (h : s.learnsOn n = true) :
    (endLearn o s).line m = if m = n then { s.line n with learn := none } else s.line m := by
  obtain ⟨j, hj, rfl⟩ := (learnsOn_iff s n).mp h
  rw [endLearn_eq s o hj]
  exact line_setLine s j.line m _

theorem learnsOn_congr (h : t.chan.job = s.chan.job) (n : LineNo) : t.learnsOn n = s.learnsOn n := by
  rw [State.learnsOn, State.learnsOn, h]

/-- The eighth sample fills the accumulator of its line for no longer than the end of the job takes (R57, R58). -/
theorem learnSample_range (s : State) (n : LineNo) (vc ic : Code) (ov : Bool) (hj : s.learnsOn n = true) :
    RangeKept s (learnSample n vc ic ov s) := by
  have work := learnSample_work s n vc ic ov
  have ended : ∀ (u : State) (o : CompletionOutcome), u.learnsOn n = true → (∀ m, m ≠ n → u.line m = s.line m) →
      ((s.line n).inRange → lineConfigOk (u.line n).cfg = true) →
      ∀ m, (s.line m).inRange → ((endLearn o u).line m).inRange := by
    intro u o hu others own m hm
    rw [line_endLearn_own u n m o hu]; split
    · next e => subst e; exact ⟨own hm, rfl⟩
    · next e => rw [others m e]; exact hm
  unfold learnSample at work ⊢
  dsimp only at work ⊢
  generalize hz : rawImpedance vc ic (s.line n).cfg.gain = z at work ⊢
  split; · exact endLearn_range s _
  split; · exact endLearn_range s _
  next hov hopen =>
  have usable : z ≤ 65534 := hz ▸ rawImpedance_le (by rw [hz]; exact hopen)
  rw [if_neg hov, if_neg hopen] at work
  split
  · next hc =>
    refine setLine_range s n _ fun h => ⟨h.1, ?_⟩
    have sum := h.accumulator.2
    simp only [Line.learnOk, Option.all_some, decide_eq_true_eq]
    exact ⟨hc, by omega⟩
  · next hc =>
    rw [if_neg hc] at work
    split
    · next hf =>
      rw [if_pos hf] at work
      refine .of_work work (ended _ _ ?_ (fun m hm => line_setLine_ne s n m _ hm) fun h => ?_)
      · exact hj
      · rw [line_setLine_same]; exact h.1
    · next hf =>
      rw [if_neg hf] at work
      refine .of_work work (ended _ _ ?_ (fun m hm => ?_) fun h => ?_)
      · refine (learnsOn_congr ?_ n).trans hj
        exact (congrArg Channel.job (clear_same _ _ _).chan).trans rfl
      · simp [setLearned, dropDebounce, line_setLine_ne, hm]
      · rw [line_setLearned, line_setLine_same]
        exact learnedReference_range h usable hf

/-! ### The delivery of a result (R36, R37) -/

theorem ampReading_range (s : State) (k : AmpNo) (ac : Code) (ov prot : Bool) :
    RangeKept s (ampReading id k ac ov prot s) := by
  rw [ampReading_cases]; split
  · exact .refl s
  · refine .trans ?_ (range_closed.placeAmpIfCounting _ k)
    split
    · exact .refl s
    · exact (setAmp_range s k _ (by exact id)).trans (range_closed.ampStepped _ .refl k _ _)

theorem placeStale_range (s : State) (m : Measurement) : RangeKept s (placeStale m s) := by
  unfold placeStale; split
  · split
    · exact placeConfirm_range s _
    · exact .refl s
  · split
    · exact placeConfirm_range s _
    · exact .refl s
  · exact range_closed.placeAmpIfCounting s _
  · exact range_closed.placeAmpIfCounting s _
  · split
    · exact placeVerify_range .refl s _
    · exact .refl s
  · split
    · exact placeVerify_range .refl s _
    · exact .refl s
  · exact .refl s

theorem deliver_range (s : State) (m : Measurement) (r : Reading) : RangeKept s (deliver m r s) := by
  unfold deliver; split
  · unfold deliverLine; split
    · exact probeReading_range s _ _ _ _
    · split
      · exact .refl s
      · next h => exact learnSample_range s _ _ _ _ (by simpa [State.learnsOn] using (not_or.mp h).2)
    · exact classificationReading_range s _ _ _ _
    · exact classificationReading_range s _ _ _ _
  · exact earthReading_range s _ _ _
  · split
    · exact range_closed.takeVerify s .refl _ _ _ _
    · exact ampReading_range s _ _ _ _
  · exact .refl s

theorem completeMeasurement_range (s : State) (m : Measurement) (r : Reading) :
    RangeKept s (completeMeasurement m r s) := by
  have taken : RangeKept s (resultTaken m r s) := by
    unfold resultTaken; split
    · exact placeStale_range s m
    · exact deliver_range s m r
  rw [completeMeasurement_eq]
  exact ((taken.trans (range_closed.reportMove _ .refl)).trans (range_search.slotCompleted m _)).trans
    (range_search.channelFree _)

/-! ### Probes and mode control -/

theorem startProbe_range {arr : Arrive} (ha : ∀ s, RangeKept s (arr s)) (s : State) (n : LineNo) :
    RangeKept s (startProbe arr n s) :=
  ((orderSelector_range s n _).trans (setLine_range _ n _ (by exact id))).trans (placeVerify_range ha _ _)

theorem startDueProbes_range {arr : Arrive} (ha : ∀ s, RangeKept s (arr s)) (s : State) :
    RangeKept s (startDueProbes arr s) :=
  foldl_range _ (fun s n => by split; exacts [startProbe_range ha s n, .refl s]) _ s

theorem expireRetry_range (s : State) (n : LineNo) : RangeKept s (expireRetry n s) := by
  unfold expireRetry; dsimp only; split
  · exact (setLine_range s n _ (by exact id)).trans (setLine_range _ n _ (by exact id))
  · exact (setLine_range s n _ (by exact id)).trans (startProbe_range arrival_range _ n)

theorem relayDone_range (s : State) (n : LineNo) : RangeKept s (relayDone n s) :=
  (((setLine_range s n _ (by exact id)).trans (arrival_range _)).trans (range_closed.move _ _)).trans (reportMove_range _)

theorem endEmergencyIfOver_range (s t : State) : RangeKept t (endEmergencyIfOver s t) := by
  unfold endEmergencyIfOver endEmergency; dsimp only; split
  · refine .trans ?_ (range_closed.grantAttempt _ arrival_range)
    split
    · exact startDueProbes_range arrival_range t
    · exact .refl t
  · exact .refl t

theorem enterSettling_range (b : Bool) (s : State) : RangeKept s (enterSettling b s) := by
  have begun : RangeKept s (settlingBegun b s) := by
    refine fun h => ⟨fun n => ?_, by cases b <;> exact h.amps, by cases b <;> exact h.sys⟩
    rw [line_settlingBegun]
    cases b with
    | false => exact h.lines n
    | true =>
      unfold Line.forget; dsimp only; rw [if_pos rfl]; split
      · exact h.lines n
      · exact h.lines n
  have due : ∀ u : State, RangeKept u (dueStarted u) := by
    intro u; unfold dueStarted; split
    · exact .refl u
    · exact startDueProbes_range .refl u
  rw [enterSettling_eq]
  exact ((begun.trans (due _)).trans (range_closed.grantAttempt _ .refl)).trans
    ((range_search.chan _ _).trans (arrival_range _))

theorem enterStandby_range (s : State) : RangeKept s (enterStandby s) :=
  (frozen_range s).trans (signalAll_same _).table.range

theorem stopProbe_range (s : State) (n : LineNo) : RangeKept s (stopProbe s n) := by
  unfold stopProbe; split
  · exact (endProbe_range s n _).trans <| (range_search.chan _ _).trans <| (endWaiting_range _ n _).trans
      (startRetry_range _ n)
  · exact .refl s

theorem enterStopping_range (s : State) : RangeKept s (enterStopping s) := by
  have stopped : ∀ u : State, RangeKept u (stopLines u) := fun u =>
    ((endLearn_range u _).trans (mapLines_range _ _ (by exact fun _ h => h))).trans (foldl_range _ stopProbe_range _ _)
  refine .trans ?_ (range_closed.checkStopped _)
  refine .trans ?_ (signalAll_same _).table.range
  refine .trans ?_ (reportMove_range _)
  exact (RangeKept.of_same (s := s) (t := abandonRound { s with mc.mode := .stopping }) rfl rfl rfl).trans (stopped _)

/-! ### LOADING (R165, R166) -/

theorem factoryLine_range (n : LineNo) : lineConfigOk (factoryLine n) = true := by simp [lineConfigOk, factoryLine]

theorem factoryAmp_range (k : AmpNo) : ampConfigOk (factoryAmp k) = true := by simp [ampConfigOk, factoryAmp]

theorem ampConfigOk_clamp (c : AmpConfig) : ampConfigOk c.clamp = true := by
  have amin := clampTo_range (v := c.amin) (show 1 ≤ 4095 by decide)
  have raiseCount := clampTo_range (v := c.raiseCount) (show 1 ≤ 15 by decide)
  have clearCount := clampTo_range (v := c.clearCount) (show 1 ≤ 15 by decide)
  simp [ampConfigOk, AmpConfig.clamp, amin, raiseCount, clearCount]

theorem systemConfigOk_clamp (c : SystemConfig) : systemConfigOk c.clamp = true := by
  have earthDivider := clampTo_range (v := c.earthDivider) (show 1 ≤ 16 by decide)
  have blindLimit := clampTo_range (v := c.blindLimit) (show 1 ≤ 255 by decide)
  have settleRounds := clampTo_range (v := c.settleRounds) (show 1 ≤ 15 by decide)
  simp [systemConfigOk, SystemConfig.clamp, earthDivider, blindLimit, settleRounds]

/-- What the load accepts spells a configuration that no clamp changes (R165). -/
theorem loadFields_range (k : RecordNo) (b : List Byte) (s : State) (h : contentOk k b = true) :
    RangeKept s (loadFields k b s) := by
  unfold contentOk at h
  unfold loadFields
  cases hk : subjectOf k <;> rw [hk] at h <;> dsimp only at h ⊢
  case line n =>
    simp only [lineContentOk, Bool.and_eq_true, decide_eq_true_eq] at h
    obtain ⟨-, clamped⟩ := h
    exact setLine_range s n _ fun hn => hn.configured ((clamp_eq_iff _).mp clamped)
  case amp j =>
    simp only [ampContentOk, Bool.and_eq_true, decide_eq_true_eq] at h
    obtain ⟨-, clamped⟩ := h
    exact setAmp_range s j _ fun _ => clamped ▸ ampConfigOk_clamp _
  case system =>
    simp only [systemContentOk, Bool.and_eq_true, decide_eq_true_eq] at h
    obtain ⟨-, clamped⟩ := h
    exact fun hs => ⟨hs.lines, hs.amps, clamped ▸ systemConfigOk_clamp _⟩

theorem loadDefaults_range (k : RecordNo) (s : State) : RangeKept s (loadDefaults k s) := by
  unfold loadDefaults
  split
  · exact setLine_range s _ _ fun hn => hn.configured (factoryLine_range _)
  · exact setAmp_range s _ _ fun _ => factoryAmp_range _
  · exact fun hs => ⟨hs.lines, hs.amps, rfl⟩

theorem contentOk_of_judge {k : RecordNo} {b : List Byte} (h : judgeRecord k b = .noCause) : contentOk k b = true := by
  unfold judgeRecord at h
  split at h; · cases h
  split at h; · cases h
  split at h
  · assumption
  · cases h

/-- The configuration of a line that leaves LOADING is as it was but for its home and whether it is enabled (R3). -/
theorem settledConfig_range (s : State) (n : LineNo) (h : lineConfigOk (s.line n).cfg = true) :
    lineConfigOk (s.settledConfig n) = true := by
  unfold State.settledConfig; dsimp only
  split
  · exact h
  · split
    · exact h
    · exact h

theorem established_range (s : State) : RangeKept s (established s) := by
  have amp : ∀ (s : State) (k : AmpNo), RangeKept s (establishAmp s k) := by
    intro s k
    unfold establishAmp; dsimp only
    split
    · exact .refl s
    · split
      · exact range_closed.setAmpState s k (by decide)
      · exact range_closed.setAmpState s k (by decide)
  have line : ∀ (s : State) (n : LineNo), RangeKept s (establishLine s n) := by
    intro s n
    have settled : RangeKept s (s.setLine n { s.line n with
        cfg := s.settledConfig n, current := (s.settledConfig n).home }) :=
      setLine_range s n _ fun h => ⟨settledConfig_range s n h.1, h.2⟩
    unfold establishLine; dsimp only
    split
    · exact (settled.trans (setLine_range _ n _ (by exact id))).trans (orderSelector_range _ n _)
    · exact settled.trans (orderSelector_range _ n _)
  exact (foldl_range _ amp _ s).trans (foldl_range _ line _ _)

theorem endLoading_range (s : State) : RangeKept s (endLoading s) := by
  rw [endLoading_eq]
  refine (established_range s).trans ?_
  split
  · exact enterSettling_range false _
  · exact enterStandby_range _

theorem settleRecord_range (s : State) (k : RecordNo) (b : List Byte) (found : LoadCause)
    (h : found = .noCause → contentOk k b = true) : RangeKept s (settleRecord k b found s) := by
  have configured : RangeKept s (recordSettled k b found s) := by
    unfold recordSettled; split
    · next hf => exact (loadFields_range k b s (h hf)).trans (.of_same rfl rfl rfl)
    · exact (loadDefaults_range k s).trans (.of_same rfl rfl rfl)
  rw [settleRecord_eq]
  refine configured.trans ?_
  unfold nextRead; dsimp only
  have counted : ∀ u : State, ∀ w, RangeKept u { u with store := w } := fun _ _ => .of_same rfl rfl rfl
  split
  · exact (counted _ _).trans ((loadRaises_same _).range.trans (endLoading_range _))
  · exact counted _ _

end Sys2Proof.Machine
end

section
/-! PROOFS. Every command keeps the configuration within the stored ranges and the learn accumulators in order (O58). -/

namespace Sys2Proof.Machine

variable {s t : State}

/-! ### The requests on one line -/

section Lines
variable (s : State) (n : LineNo)

theorem withdrawConfirm_range (x : Subject) : RangeKept s (withdrawConfirm x s) := range_search.chan s _

theorem withdrawVerify_range (x : Subject) : RangeKept s (withdrawVerify x s) := range_search.chan s _

theorem isolateConnected_range : RangeKept s (isolateConnected n s) :=
  (orderSelector_range s n _).trans <| (setLine_range _ n _ (by exact id)).trans <|
    (withdrawConfirm_range _ _).trans (setLine_range _ n _ (by exact id))

theorem isolateProbing_range : RangeKept s (isolateProbing n s) :=
  (endProbe_range s n _).trans <| (withdrawVerify_range _ _).trans <|
    (setLine_range _ n _ (by exact id)).trans (endWaiting_range _ n _)

theorem isolateOff_range : RangeKept s (isolateOff n s) :=
  (setLine_range s n _ (by exact id)).trans (endWaiting_range _ n _)

theorem isolateLine_range : RangeKept s (isolateLine n s).1 := by
  unfold isolateLine; dsimp only
  split
  · exact (isolateConnected_range s n).trans (reportMove_range _)
  · exact (isolateProbing_range s n).trans (reportMove_range _)
  · split
    · exact .refl s
    · exact isolateOff_range s n
  · exact isolateOff_range s n
  · exact .refl s

theorem accept_range (p : Port) : RangeKept s (accept p s).1 := by
  rw [accept_eq]; exact (setPort_same s p _).range

theorem restoreLine_range (p : Port) (tag : Byte) : RangeKept s (restoreLine p tag n s).1 := by
  have accepted : RangeKept s (reportMove arrival (accept p (acceptRestore p tag n s)).1) := by
    refine (RangeKept.trans ?_ (accept_range _ p)).trans (reportMove_range _)
    unfold acceptRestore; dsimp only; split
    · exact (setLine_range s n _ (by exact id)).trans (startProbe_range arrival_range _ n)
    · exact (setLine_range s n _ (by exact id)).trans (setLine_range _ n _ (by exact id))
  unfold restoreLine; dsimp only
  split
  · split
    · exact .refl s
    · exact accepted
  · split
    · exact .refl s
    · exact accepted
  all_goals exact .refl s

theorem enableLine_range : RangeKept s (enableLine n s).1 := by
  have brought : RangeKept s (s.setLine n (s.line n).brought) := setLine_range s n _ fun h => ⟨h.1, rfl⟩
  unfold enableLine; split
  · exact .refl s
  · dsimp only; split
    · exact brought.trans (raise_same _ _ _).range
    · exact brought

theorem removeLine_range : RangeKept s (removeLine n s) := by
  have removed : RangeKept s (lineRemoved n s) :=
    (endWaiting_range s n _).trans <| (orderSelector_range _ n _).trans <| (setLine_range _ n _ (by exact id)).trans <|
      (withdrawVerify_range _ _).trans (withdrawConfirm_range _ _)
  rw [removeLine_eq]
  exact removed.trans <| (foldClears_same _ _).range.trans (abortLearnOf_range _ n)

theorem disableLine_range : RangeKept s (disableLine n s).1 := by
  unfold disableLine
  split; · exact .refl s
  split; · exact .refl s
  rw [withReport_eq]; dsimp only
  exact (removeLine_range s n).trans (reportMove_range _)

theorem configureReference_range (old : LineConfig) : RangeKept s (configureReference n old s) := by
  have changed : RangeKept s (withdrawConfirm (.line n) (s.setLine n { s.line n with
      candidate := none, count := 0, deviation := deviationOf (s.line n).cfg.zref (s.line n).zf })) :=
    (setLine_range s n _ (by exact id)).trans (withdrawConfirm_range _ _)
  unfold configureReference; dsimp only
  split; · exact .refl s
  split; · exact changed
  split
  · exact changed.trans (raise_same _ _ _).range
  · exact changed.trans (clear_same _ _ _).range

theorem configureEarth_range (old : LineConfig) : RangeKept s (configureEarth n old s) := by
  have reset : ∀ P : Prop, [Decidable P] →
      RangeKept s (if P then s.setLine n { s.line n with earthCandidate := none, earthCount := 0 } else s) := by
    intro P _; split
    · exact setLine_range s n _ (by exact id)
    · exact .refl s
  unfold configureEarth; dsimp only
  split
  · exact (reset _).trans <| (setLine_range _ n _ (by exact id)).trans (clear_same _ _ _).range
  · exact reset _

theorem configureRetry_range : RangeKept s (configureRetry n s) := by
  unfold configureRetry; dsimp only
  split; · exact .refl s
  split; · exact setLine_range s n _ (by exact id)
  split; · exact setLine_range s n _ (by exact id)
  split
  · exact setLine_range s n _ (by exact id)
  · exact .refl s

/-- CONFIGURE_LINE writes what the clamps of R1 leave of the request. -/
theorem configureLine_range (payload : List Byte) : RangeKept s (configureLine payload n s).1 := by
  have applied : ∀ c : LineConfig, RangeKept s (applyLineConfig n c.clamp s) := fun c =>
    (setLine_range s n { s.line n with cfg := c.clamp, current := (s.amp c.clamp.home).carrying }
      fun h => ⟨lineConfigOk_clamp c, h.2⟩).trans <| (configureReference_range _ n _).trans <|
      (configureEarth_range _ n _).trans (configureRetry_range _ n)
  unfold configureLine; dsimp only
  split; · exact .refl s
  split; · exact .refl s
  split; · exact .refl s
  split
  · exact .refl s
  · exact applied _

theorem learnLine_range (p : Port) (tag : Byte) : RangeKept s (learnLine p tag n s).1 := by
  have begun : RangeKept s (startLearn p tag n s) :=
    ((setLine_range s n { s.line n with learn := some ⟨0, 0⟩ } fun h => ⟨h.1, rfl⟩).trans (range_search.chan _ _)).trans
      (arrival_range _)
  unfold learnLine
  split; · exact .refl s
  split; · exact .refl s
  split; · exact .refl s
  split; · exact .refl s
  exact begun.trans (accept_range _ p)

end Lines

/-! ### The requests on one amplifier -/

section Amps
variable (s : State) (k : AmpNo)

theorem grantAttempt_range : RangeKept s (grantAttempt arrival s) := range_closed.grantAttempt s arrival_range

theorem joinManual_range (kind : CoKind) (r : Requester) : RangeKept s (joinManual kind k r s) := by
  have joined : RangeKept s (joinEntry ⟨k, kind, .manual, some r, s.co.seqCounter⟩ (takeSeq s).2) := .of_same rfl rfl rfl
  exact joined.trans (grantAttempt_range _)

theorem coverAmp_range (p : Port) (tag : Byte) : RangeKept s (coverAmp p tag k s).1 := by
  unfold coverAmp
  split; · exact .refl s
  split; · exact .refl s
  split; · exact .refl s
  split; · exact .refl s
  split; · exact .refl s
  exact (joinManual_range s k _ _).trans (accept_range _ p)

theorem returnAmp_range (p : Port) (tag : Byte) : RangeKept s (returnAmp p tag k s).1 := by
  unfold returnAmp
  split; · exact .refl s
  split; · exact .refl s
  split; · exact .refl s
  split; · exact .refl s
  exact (joinManual_range s k _ _).trans (accept_range _ p)

theorem enableAmp_range : RangeKept s (enableAmp k s).1 := by
  unfold enableAmp; split
  · exact .refl s
  · next hd =>
    have brought : RangeKept s (ampBrought k s) := setAmp_range s k _ (by exact id)
    dsimp only
    rw [bringAmp_eq s k (not_not.mp hd)]
    split
    · exact brought
    · exact brought.trans (grantAttempt_range _)

theorem releaseStandby_range (x : AmpNo) : RangeKept s (releaseStandby k x s) := by
  have home : RangeKept s (takeLinesHome x k s) := foldl_range _ (fun s n => moveLine_range s k n) _ s
  have released := (home.trans (range_closed.setCarrying _ k k)).trans (range_closed.dropCover _ k)
  have free := (released.trans (range_closed.setAmpState _ x (st := .free) (by decide))).trans (range_closed.dropCovered _ x)
  exact (free.trans (grantAttempt_range _)).trans (reportMove_range _)

theorem disableAmp_range : RangeKept s (disableAmp k s).1 := by
  have removed : RangeKept s (ampRemoved k s) :=
    ((setAmp_range s k _ (by exact id)).trans (withdrawConfirm_range _ _)).trans (foldClears_same _ _).range
  unfold disableAmp
  split; · exact .refl s
  split; · exact .refl s
  next hd =>
  split; · exact .refl s
  dsimp only
  rw [removeAmp_eq s k hd]
  split
  · split
    · exact removed.trans (releaseStandby_range _ k _)
    · exact removed
  · exact removed

/-- CONFIGURE_AMP writes what the clamps of R70 leave of the request. -/
theorem configureAmp_range (payload : List Byte) : RangeKept s (configureAmp payload k s).1 := by
  unfold configureAmp; dsimp only
  split; · exact .refl s
  split; · exact .refl s
  split; · exact .refl s
  exact setAmp_range s k _ fun _ => ampConfigOk_clamp _

end Amps

/-! ### Mode control and the store -/

theorem setFlag_range (s : State) (p : Port) (v : Bool) : RangeKept s (setFlag p v s) := by
  cases p with
  | a => exact .of_same rfl rfl rfl
  | b => exact .of_same rfl rfl rfl
  | m => exact .refl s

theorem startMode_range (s : State) : RangeKept s (startMode s).1 := by
  unfold startMode; split
  · exact .refl s
  · exact enterSettling_range true s
  all_goals exact .refl s

theorem stopMode_range (s : State) : RangeKept s (stopMode s).1 := by
  unfold stopMode
  split; · exact .refl s
  split; · exact .refl s
  split; · exact .refl s
  split; · exact .refl s
  dsimp only
  exact enterStopping_range s

/-- CONFIGURE_SYSTEM writes what the clamps of R180 leave of the request. -/
theorem configureSystem_range (payload : List Byte) (s : State) : RangeKept s (configureSystem payload s).1 := by
  have configured : ∀ c : SystemConfig, RangeKept s { s with mc.sys := c.clamp } := fun c h =>
    ⟨h.lines, h.amps, systemConfigOk_clamp c⟩
  unfold configureSystem; dsimp only; split
  · exact .refl s
  · exact configured _

theorem storeRecord_range (p : Port) (tag : Byte) (payload : List Byte) (s : State) :
    RangeKept s (storeRecord p tag payload s).1 := by
  have begun : ∀ k, RangeKept s (startWrite p tag k s) := fun _ => .of_same rfl rfl rfl
  unfold storeRecord
  split; · exact .refl s
  split; · exact .refl s
  split; · exact .refl s
  exact (begun _).trans (accept_range _ p)

/-- The store device writes no configuration (R162, R168). -/
theorem store_range (s : State) (x : Store) : RangeKept s { s with store := x } := .of_same rfl rfl rfl

theorem writeDone_range (s : State) (w : WriteInFlight) : RangeKept s (writeDone w s) := by
  have ended : RangeKept s (setStatus w.record { s.recordStatus w.record with condition := .valid }
      (setArea w.record (.known w.bytes) { s with store.write := none })) := store_range s _
  exact ended.trans ((clear_same _ _ _).range.trans (complete_same _ _ _).table.range)

theorem writeTimedOut_range (s : State) (w : WriteInFlight) : RangeKept s (writeTimedOut w s) := by
  have ended : RangeKept s (setStatus w.record { s.recordStatus w.record with condition := .writeFailed }
      (setArea w.record .unknown { s with store.write := none, store.reportsDue := s.store.reportsDue + 1 })) :=
    store_range s _
  refine ended.trans (RangeKept.trans ?_ (complete_same _ _ _).table.range)
  split
  · exact .refl _
  · exact (raise_same _ _ _).range

/-! ### Resets and the passing of a millisecond -/

/-- After a reset every configuration is the factory default, and no learn job runs (R161). -/
theorem beginReset_range (s : State) (kind : ResetKind) : InRange (beginReset kind s) := by
  have line : ∀ n, (beginReset kind s).line n = resetLine n := by
    intro n; fin_cases n <;> rfl
  have amp : ∀ k, (beginReset kind s).amp k = resetAmp k := by
    intro k; fin_cases k <;> rfl
  exact ⟨fun n => line n ▸ ⟨factoryLine_range n, rfl⟩, fun k => amp k ▸ factoryAmp_range k, rfl⟩

theorem endReset_range (s : State) (r : ResetInForce) (low emerg : Bool) : RangeKept s (endReset r low emerg s) := by
  have ended : ∀ supply, RangeKept s { s with
      mc := { s.mc with cause := r.cause, emergInput := emerg, supply := supply, resetInForce := none } } :=
    fun _ => .of_same rfl rfl rfl
  unfold endReset; dsimp only; split
  · exact (ended _).trans (raise_same _ _ _).range
  · exact ended _

theorem tick_range (s : State) : RangeKept s (tick s) := by
  unfold tick; split
  · exact .refl s
  · exact (mapLines_range s Line.tick fun _ h => h).trans (.of_same rfl rfl rfl)

/-! ### Taking a command -/

section Requests
variable {q : Request} {p : Port} {payload : List Byte}

theorem takeRequest_range {act : State → State × Reply} (ht : takeRequest q p payload act s = .next t)
    (ha : RangeKept s (act s).1) : RangeKept s t := by
  obtain ⟨-, e⟩ | ⟨c, -, -, e⟩ | ⟨-, -, e⟩ := takeRequest_cases s q p payload act <;> rw [e] at ht <;> cases ht
  · exact .refl s
  · exact (setPort_same s p _).range
  · exact ha.trans (setPort_same _ p _).range

theorem lineRequest_range {act : LineNo → State → State × Reply}
    (ht : takeRequest q p payload (onLine payload act) s = .next t) (ha : ∀ n, RangeKept s (act n s).1) : RangeKept s t := by
  refine takeRequest_range ht ?_
  unfold onLine; split
  · exact .refl s
  · exact ha _

theorem ampRequest_range {act : AmpNo → State → State × Reply}
    (ht : takeRequest q p payload (onAmp payload act) s = .next t) (ha : ∀ k, RangeKept s (act k s).1) : RangeKept s t := by
  refine takeRequest_range ht ?_
  unfold onAmp; split
  · exact .refl s
  · exact ha _

theorem takeEvent_range {act : State → State} (ht : takeEvent act s = .next t) (ha : RangeKept s (act s)) :
    RangeKept s t := by
  obtain ⟨-, e⟩ | ⟨-, e⟩ := takeEvent_cases s act <;> rw [e] at ht <;> cases ht
  · exact .refl s
  · exact ha

end Requests

/-! ### The notification requests -/

section Notification
variable {p : Port} {b : List Byte}

theorem execListen_range (ht : execListen p b s = .next t) : RangeKept s t := by
  refine takeRequest_range ht ?_
  dsimp only; split
  · exact .refl s
  · exact (startListening_same s p).range

theorem execLeave_range (ht : execLeave p b s = .next t) : RangeKept s t := by
  refine takeRequest_range ht ?_
  split
  · exact (stopListening_same s p).range
  · exact .refl s

theorem execSetNotify_range (ht : execSetNotify p b s = .next t) : RangeKept s t :=
  takeRequest_range ht ((setPort_same s p _).trans (setPort_same _ p _)).range

theorem execFetch_range (ht : execFetch p b s = .next t) : RangeKept s t := by
  refine takeRequest_range ht ?_
  dsimp only; split
  · exact (setPort_same s p _).range
  · split
    · exact (setPort_same s p _).range
    · exact (fetchRecord_same s p _ _).range

theorem execDone_range (ht : execDone p b s = .next t) : RangeKept s t := by
  refine takeRequest_range ht ?_
  dsimp only; split
  · exact .refl s
  · exact (finishClass_same s p _).range

theorem execDoneClass_range (ht : execDoneClass p b s = .next t) : RangeKept s t := by
  refine takeRequest_range ht ?_
  dsimp only; split
  · exact .refl s
  · split
    · exact (finishClass_same s p _).range
    · exact .refl s

theorem execReadCompletion_range (ht : execReadCompletion p b s = .next t) : RangeKept s t := by
  refine takeRequest_range ht ?_
  dsimp only; split
  · exact .refl s
  · exact (setPort_same s p _).range

theorem execResetPort_range (ht : execResetPort p b s = .next t) : RangeKept s t :=
  takeRequest_range ht (((resetPortSide_same s p).range.trans (setFlag_range _ p false)).trans (endEmergencyIfOver_range _ _))

theorem execAck_range (ht : execAck p b s = .next t) : RangeKept s t := by
  refine takeRequest_range ht ?_
  split
  · exact .refl s
  · split
    · exact .refl s
    · split
      · exact (acknowledge_same s _ p).range
      · exact .refl s

theorem execEmergencyOn_range (ht : execEmergencyOn p b s = .next t) : RangeKept s t := by
  refine takeRequest_range ht ?_
  split
  · exact .refl s
  · exact setFlag_range s p true

theorem execEmergencyOff_range (ht : execEmergencyOff p b s = .next t) : RangeKept s t := by
  refine takeRequest_range ht ?_
  split
  · exact (setFlag_range s p false).trans (endEmergencyIfOver_range _ _)
  · exact .refl s

end Notification

/-! ### Events -/

theorem execUnknownRequest_range {p : Port} {code length : Byte} (ht : execUnknownRequest p code length s = .next t) :
    RangeKept s t := by
  refine takeEvent_range ht ?_
  split
  · exact (setPort_same s p _).range
  · split
    · exact .refl s
    · exact (setPort_same s p _).range

theorem execResetEnd_range {low emerg : Bool} (ht : execResetEnd low emerg s = .next t) : RangeKept s t := by
  unfold execResetEnd at ht
  split at ht <;> cases ht
  · exact endReset_range s _ low emerg
  · exact .refl s

theorem execRecordRead_range {b : List Byte} (ht : execRecordRead b s = .next t) : RangeKept s t := by
  refine takeEvent_range ht ?_
  split
  · exact .refl s
  · split
    · exact (store_range s _).trans (settleRecord_range (setArea _ _ s) _ b _ contentOk_of_judge)
    · exact .refl s

theorem execUnreadable_range (ht : execUnreadable s = .next t) : RangeKept s t := by
  refine takeEvent_range ht ?_
  split
  · exact .refl s
  · exact settleRecord_range s _ [] _ nofun

theorem input_range (s : State) (v : Bool) : RangeKept s { s with mc.emergInput := v } := .of_same rfl rfl rfl

theorem supply_range (s : State) (v : Supply) : RangeKept s { s with mc.supply := v } := .of_same rfl rfl rfl

theorem execSupplyFalls_range (ht : execSupplyFalls s = .next t) : RangeKept s t := by
  refine takeEvent_range ht ?_
  split
  · exact (supply_range s _).trans (raise_same _ _ _).range
  · exact .refl s

theorem execSupplyRises_range (ht : execSupplyRises s = .next t) : RangeKept s t := by
  refine takeEvent_range ht ?_
  split
  · exact (supply_range s _).trans (clear_same _ _ _).range
  · exact .refl s

theorem execMeasurementCompletion_range {r : Reading} (ht : execMeasurementCompletion r s = .next t) : RangeKept s t := by
  refine takeEvent_range ht ?_
  split
  · exact .refl s
  · split
    · exact completeMeasurement_range s _ r
    · exact .refl s

theorem execEmptyRoundExpiry_range (ht : execEmptyRoundExpiry s = .next t) : RangeKept s t := by
  refine takeEvent_range ht ?_
  split
  · exact (range_search.endRound s).trans (arrival_range _)
  · exact .refl s

theorem execRelayCompletion_range {n : LineNo} (ht : execRelayCompletion n s = .next t) : RangeKept s t := by
  refine takeEvent_range ht ?_
  split
  · exact relayDone_range s n
  · exact .refl s

theorem execRetryExpiry_range {n : LineNo} (ht : execRetryExpiry n s = .next t) : RangeKept s t := by
  refine takeEvent_range ht ?_
  split
  · exact (expireRetry_range s n).trans (reportMove_range _)
  · exact .refl s

theorem execWriteCompletion_range (ht : execWriteCompletion s = .next t) : RangeKept s t := by
  have used : RangeKept s { s with freeUses := s.freeUses + 1 } := .of_same rfl rfl rfl
  refine takeEvent_range ht ?_
  split
  · exact store_range s _
  · next w _ =>
    split
    · exact writeDone_range s w
    · dsimp only; split
      · exact used.trans (store_range _ _)
      · exact used.trans (writeDone_range _ w)

theorem execWriteTimeout_range (ht : execWriteTimeout s = .next t) : RangeKept s t := by
  refine takeEvent_range ht ?_
  split
  · exact writeTimedOut_range s _
  · exact .refl s

/-! ### Every command -/

theorem exec_range (c : Instr) (ht : exec c s = .next t) : RangeKept s t := by
  cases c with
  | status p _ b => exact takeRequest_range (act := fun s => (s, statusReply p s)) ht (.refl s)
  | identify p _ b => exact takeRequest_range (act := fun s => (s, identifyReply p)) ht (.refl s)
  | readLine p _ b =>
    unfold exec execReadLine at ht
    exact takeRequest_range ht (by split <;> exact .refl s)
  | readAmp p _ b =>
    unfold exec execReadAmp at ht
    exact takeRequest_range ht (by split <;> exact .refl s)
  | readRecord p _ b =>
    unfold exec execReadRecord at ht
    exact takeRequest_range ht (by split <;> exact .refl s)
  | listRecords p _ b => exact takeRequest_range (act := fun s => (s, listReply p (byteAt b 0) s)) ht (.refl s)
  | readQueue p _ b =>
    exact takeRequest_range (act := fun s => (s, ⟨.ok, channelReport s.chan ++ changeoverReport s⟩)) ht (.refl s)
  | listen p _ b => exact execListen_range ht
  | leave p _ b => exact execLeave_range ht
  | setNotify p _ b => exact execSetNotify_range ht
  | fetch p _ b => exact execFetch_range ht
  | peek p _ b => exact takeRequest_range (act := fun s => (s, peekReply p s)) ht (.refl s)
  | done p _ b => exact execDone_range ht
  | doneClass p _ b => exact execDoneClass_range ht
  | readCompletion p _ b => exact execReadCompletion_range ht
  | resetPort p _ b => exact execResetPort_range ht
  | ack p _ b => exact execAck_range ht
  | ackAll p _ b =>
    unfold exec execAckAll at ht
    exact takeRequest_range ht (foldl_sameButTable _ (fun s k => acknowledge_same s k p) _ s).range
  | isolate p _ b => exact lineRequest_range ht (isolateLine_range s)
  | restore p tag b => exact lineRequest_range ht fun n => restoreLine_range s n p tag
  | enableLine p _ b => exact lineRequest_range ht (enableLine_range s)
  | disableLine p _ b => exact lineRequest_range ht (disableLine_range s)
  | configureLine p _ b => exact lineRequest_range ht fun n => configureLine_range s n b
  | learn p tag b => exact lineRequest_range ht fun n => learnLine_range s n p tag
  | cover p tag b => exact ampRequest_range ht fun k => coverAmp_range s k p tag
  | returnLines p tag b => exact ampRequest_range ht fun k => returnAmp_range s k p tag
  | enableAmp p _ b => exact ampRequest_range ht (enableAmp_range s)
  | disableAmp p _ b => exact ampRequest_range ht (disableAmp_range s)
  | configureAmp p _ b => exact ampRequest_range ht fun k => configureAmp_range s k b
  | start p _ b => exact takeRequest_range ht (startMode_range s)
  | stop p _ b => exact takeRequest_range ht (stopMode_range s)
  | emergencyOn p _ b => exact execEmergencyOn_range ht
  | emergencyOff p _ b => exact execEmergencyOff_range ht
  | configureSystem p _ b => exact takeRequest_range ht (configureSystem_range b s)
  | store p tag b => exact takeRequest_range ht (storeRecord_range p tag b s)
  | unknownRequest p code tag length => exact execUnknownRequest_range ht
  | frameAborted p received => exact takeEvent_range (act := fun s => s) ht (.refl s)
  | powerOn => cases ht; exact fun _ => beginReset_range s _
  | brownOut => cases ht; exact fun _ => beginReset_range s _
  | resetPin => cases ht; exact fun _ => beginReset_range s _
  | resetEnd low emerg => exact execResetEnd_range ht
  | recordRead b => exact execRecordRead_range ht
  | unreadable => exact execUnreadable_range ht
  | emergAsserted =>
    unfold exec execEmergAsserted at ht
    exact takeEvent_range ht (input_range s true)
  | emergReleased =>
    unfold exec execEmergReleased at ht
    exact takeEvent_range ht ((input_range s false).trans (endEmergencyIfOver_range s _))
  | supplyFalls => exact execSupplyFalls_range ht
  | supplyRises => exact execSupplyRises_range ht
  | measurementCompletion r => exact execMeasurementCompletion_range ht
  | emptyRoundExpiry => exact execEmptyRoundExpiry_range ht
  | relayCompletion n => exact execRelayCompletion_range ht
  | retryExpiry n => exact execRetryExpiry_range ht
  | writeCompletion => exact execWriteCompletion_range ht
  | writeTimeout => exact execWriteTimeout_range ht

theorem step_range (ht : step s = .next t) : RangeKept s t := by
  unfold step at ht
  split at ht
  · cases ht
    exact tick_range s
  · next c rest _ =>
    have taken : RangeKept s { s with pending := rest } := .of_same rfl rfl rfl
    exact taken.trans (exec_range c ht)

end Sys2Proof.Machine

open Sys2Proof.Machine in
/-- Settles O58: every operation of the blocks keeps each configuration in range and each accumulator in order
(`RangeKept`); the requests that write a configuration clamp it, the load takes what no clamp changes, and a mean of eight
usable samples is a reference in range. -/
theorem everyStepKeepsTheStoredRanges : Obligations.EveryStepKeepsTheStoredRanges := by
  intro s t ht ok
  exact configOk_iff.mpr (step_range ht (configOk_iff.mp ok))
end

section
/-! PROOFS. What the search leaves of a part that is ACTIVE, and the learn samples (O49). -/

namespace Sys2Proof.Machine

variable {s t u : State} {n : LineNo} {m : Measurement}

/-! ### The search in ACTIVE (R32, R36) -/

/-- From `s` to `t` the channel has changed, and the attention latches, and no more of what the blocks keep. -/
structure Stands (s t : State) : Prop where
  mode : t.mc.mode = s.mc.mode
  lines : t.lines = s.lines
  amps : t.amps = s.amps
  co : t.co = s.co
  faults : t.faults = s.faults
  ports : SameButLatch s.ports t.ports

theorem Stands.refl (s : State) : Stands s s := ⟨rfl, rfl, rfl, rfl, rfl, .refl _⟩

theorem Stands.trans (h : Stands s t) (g : Stands t u) : Stands s u :=
  ⟨g.mode.trans h.mode, g.lines.trans h.lines, g.amps.trans h.amps, g.co.trans h.co, g.faults.trans h.faults,
    h.ports.trans g.ports⟩

/-- An ACTIVE part stands. -/
def ActiveStands (s t : State) : Prop := s.mc.mode = .active → Stands s t

/-- The search leaves the modes other than ACTIVE alone behind a count of rounds, and STOPPING alone when all is done. -/
theorem activeStands_search : SearchClosed ActiveStands where
  refl s _ := .refl s
  trans h g hs := (h hs).trans (g ((h hs).mode.trans hs))
  chan _ _ _ := ⟨rfl, rfl, rfl, rfl, rfl, .refl _⟩
  signal s h := by
    have ports := (activeKept_search.signal s h).2
    rw [signalAll_exact]
    exact ⟨rfl, rfl, rfl, rfl, rfl, ports⟩
  settles s c hs h := absurd (hs.symm.trans h) (by decide)
  active s hs h := absurd (hs.symm.trans h) (by decide)
  standby s hs _ _ h := absurd (hs.symm.trans h) (by decide)

/-- A result that ends no move leaves, in ACTIVE, what its delivery left. -/
theorem afterResult_activeStands (ha : u.mc.mode = .active) (h : u.move ≠ some []) : Stands u (afterResult m u) := by
  rw [afterResult_idle h]
  exact activeStands_search.trans (activeStands_search.slotCompleted m u) (activeStands_search.channelFree _) ha

/-! ### The learn job ended (R58) -/

/-- Where `s` has no learn job `t` has none. -/
def JobFree (s t : State) : Prop := s.chan.job = none → t.chan.job = none

theorem JobFree.of_job (h : t.chan.job = s.chan.job) : JobFree s t := fun hs => h.trans hs

theorem orderSelector_jobFree (s : State) (n : LineNo) (pos : Selector) : JobFree s (orderSelector n pos s) := by
  intro hj
  have quiet : s.learnsOn n = false := by simp [State.learnsOn, hj]
  by_cases h : (s.line n).selector = pos
  · rw [orderSelector_held s n h]; exact hj
  · rw [orderSelector_eq s n h, quiet]; exact hj

/-- Nothing that grants and returns do starts a learn job. -/
theorem jobFree_grants : GrantClosed JobFree where
  refl _ := id
  trans h g := g ∘ h
  table h := .of_job (by rw [h.chan])
  verify _ _ _ := .of_job rfl
  co _ _ _ := .of_job rfl
  move _ _ := .of_job rfl
  amp _ _ _ _ := .of_job rfl
  moveLine s y n := by
    unfold moveLine; dsimp only; split
    · exact orderSelector_jobFree (s.setLine n _) n _
    · exact .of_job rfl
  settles _ _ := .of_job rfl
  active _ _ := .of_job rfl
  freeze _ _ _ _ := .of_job rfl

theorem endRound_jobFree (s : State) : JobFree s (endRound s) := by
  have counted : JobFree s (signalAll (countRound s.roundOver)) := fun hs => by
    rw [(signalAll_same _).chan]
    exact jobFree_grants.countRound s.roundOver hs
  rw [endRound_eq]; split
  · exact counted
  · exact counted

theorem takeSlot_jobFree (s : State) (r : Round) (i : Nat) (x : Target) : JobFree s (takeSlot r i x s) := by
  unfold takeSlot; split
  · exact id
  · exact id

theorem tryScan_jobFree (s : State) : JobFree s (tryScan s) := by
  unfold tryScan; split
  · exact id
  · split
    · exact id
    · split
      · exact takeSlot_jobFree s _ _ _
      · unfold tryFirstSlot; split
        · exact endRound_jobFree s
        · split
          · exact takeSlot_jobFree _ _ _ _ ∘ endRound_jobFree s
          · exact endRound_jobFree s

/-- The search starts no learn job. -/
theorem jobFree_search : SearchKeeps (·.chan.job = none) where
  verify s _ h := by
    obtain hp | ⟨pre, x, rest, hs, hp, hx⟩ := first_or_none s.grantsVerify s.chan.verify
    · rw [tryVerify_none s hp]; exact h
    · rw [tryVerify_some s hs hp hx]; exact h
  confirm s _ h := by
    obtain hp | ⟨pre, x, rest, hs, hp, hx⟩ := first_or_none s.grantsConfirm s.chan.confirm
    · rw [tryConfirm_none s hp]; exact h
    · rw [tryConfirm_some s hs hp hx]; exact h
  learn s _ h := by
    have none : s.grantsLearn = false := by simp [State.grantsLearn, h]
    rw [tryLearn_none s none]
    exact h
  scan s _ h := tryScan_jobFree s h

theorem afterResult_jobFree (m : Measurement) : JobFree s (afterResult m s) := by
  intro hs
  have completed : (slotCompleted m (reportMove id s)).chan.job = none := by
    have reported := jobFree_grants.reportMove s (fun _ => id) hs
    unfold slotCompleted; split
    · exact endRound_jobFree _ reported
    · exact reported
  exact jobFree_search.channelFree (fun u hu => by rw [enterStandby_chan]; exact hu) completed

/-! ### A learn sample, by what it finds (R56, R57) -/

/-- The accumulator of a line as a sample finds it. -/
def Line.accumulator (l : Line) : LearnAcc := l.learn.getD ⟨0, 0⟩

/-- The sample of impedance `z` counted on line `n`. -/
def sampled (n : LineNo) (z : Nat) (s : State) : State :=
  s.setLine n { s.line n with learn := some ⟨(s.line n).accumulator.count + 1, (s.line n).accumulator.sum + z⟩ }

section Samples
variable (vc ic : Code)

theorem learnSample_masked : learnSample n vc ic true s = endLearn .learnDisturbed s := rfl

theorem learnSample_open (hz : rawImpedance vc ic (s.line n).cfg.gain = openZ) :
    learnSample n vc ic false s = endLearn .learnOpen s := by
  simp [learnSample, hz]

variable {vc ic} {z : Nat} (hz : rawImpedance vc ic (s.line n).cfg.gain = z) (ho : z ≠ openZ)
include hz ho

theorem learnSample_counted (hc : (s.line n).accumulator.count + 1 < 8) :
    learnSample n vc ic false s = sampled n z s := by
  have counts : (s.line n).accumulator.count + 1 < learnSamples := hc
  simp only [Line.accumulator] at counts
  simp [learnSample, sampled, Line.accumulator, hz, ho, counts]

variable (hc : 8 ≤ (s.line n).accumulator.count + 1)
include hc

theorem learnSample_short (hf : learnedReference ((s.line n).accumulator.sum + z) ≤ (s.line n).cfg.shortFloor) :
    learnSample n vc ic false s = endLearn .learnShort (sampled n z s) := by
  have counts : ¬(s.line n).accumulator.count + 1 < learnSamples := Nat.not_lt.mpr hc
  simp only [Line.accumulator] at counts hf
  simp [learnSample, sampled, Line.accumulator, hz, ho, counts, hf]

theorem learnSample_done (hf : (s.line n).cfg.shortFloor < learnedReference ((s.line n).accumulator.sum + z)) :
    learnSample n vc ic false s = endLearn .learnDone
      (setLearned n (learnedReference ((s.line n).accumulator.sum + z)) (sampled n z s)) := by
  have counts : ¬(s.line n).accumulator.count + 1 < learnSamples := Nat.not_lt.mpr hc
  have above := Nat.not_le.mpr hf
  simp only [Line.accumulator] at counts above
  simp [learnSample, sampled, Line.accumulator, hz, ho, counts, above]

end Samples

@[simp] theorem line_sampled (n : LineNo) (z : Nat) (s : State) : (sampled n z s).line n =
    { s.line n with
      learn := some ⟨(s.line n).accumulator.count + 1, (s.line n).accumulator.sum + z⟩ } := by
  simp [sampled]

/-- A sample that is not stale is delivered (R36, R56). -/
theorem resultTaken_learn (vc ic : Code) (masked : Bool) (ht : m.target = .line n) (hc : m.cls = .learn)
    (he : m.epochCopy = some (s.line n).epoch) (ho : m.orphan = false) (hj : s.learnsOn n = true) :
    resultTaken m (.line vc ic masked) s = learnSample n vc ic masked s := by
  have fresh : ¬s.isStale m = true := fun h => (isStale_line ht).mp h he
  have job : s.chan.job.any (·.line = n) = true := hj
  simp [resultTaken, fresh, deliver, deliverLine, hc, ht, ho, job]

/-! ### The completion that ends the job (R57, R58) -/

/-- The job of a line that a sample has left in `u` ends with `o`: what the completion leaves, in ACTIVE. -/
theorem learnEnded_completed (o : CompletionOutcome) {j : LearnJob} (hj : u.chan.job = some j) (hn : j.line = n)
    (ha : u.mc.mode = .active) (hm : u.move ≠ some []) (hp : SameButLatch s.ports u.ports) :
    ∀ t, t = afterResult m (endLearn o u) → t.chan.job = none ∧ (t.line n).learn = none ∧ t.faults = u.faults ∧
      ∀ q, (t.port q).completions = ((complete j.requester o s).port q).completions ∧
        (t.port q).inFlight = ((complete j.requester o s).port q).inFlight := by
  rintro t rfl
  have ended := endLearn_eq u o hj
  have stands : Stands (endLearn o u) (afterResult m (endLearn o u)) :=
    afterResult_activeStands (by rw [ended]; exact ha) (by rw [ended]; exact hm)
  have ports : SameButLatch (handedOn (some j.requester) o s.ports) (afterResult m (endLearn o u)).ports := by
    refine (hp.handedOn _ _).trans ?_
    have := stands.ports
    rw [ended] at this ⊢
    exact this
  refine ⟨afterResult_jobFree m (by rw [ended]; rfl), ?_, ?_, fun q => ?_⟩
  · rw [line_congr stands.lines, ended]
    subst hn
    exact congrArg Line.learn (line_setLine_same u j.line _)
  · rw [stands.faults, ended]; rfl
  · have port := ports q
    rw [ports_get] at port
    rw [port, complete_eq]
    exact ⟨rfl, rfl⟩

/-- What the sample of an ACTIVE part comes to with the job ended, as the statement says it. -/
theorem learnEnded_parts (o : CompletionOutcome) (hl : s.learnsOn n = true) (hc : u.chan.job = s.chan.job)
    (hmc : u.mc = s.mc) (hmove : u.move = s.move) (hp : SameButLatch s.ports u.ports)
    (ha : s.mc.mode = .active) (hm : s.move ≠ some []) :
    ∀ t, t = afterResult m (endLearn o u) → t.chan.job = none ∧ (t.line n).learn = none ∧ t.faults = u.faults ∧
      ∀ j, s.chan.job = some j → ∀ q, (t.port q).completions = ((complete j.requester o s).port q).completions ∧
        (t.port q).inFlight = ((complete j.requester o s).port q).inFlight := by
  obtain ⟨j, hj, hn⟩ := (learnsOn_iff s n).mp hl
  intro t ht
  obtain ⟨job, learn, faults, ports⟩ := learnEnded_completed (m := m) (u := u) o (hc.trans hj) hn (by rw [hmc]; exact ha)
    (by rw [hmove]; exact hm) hp t ht
  refine ⟨job, learn, faults, fun i hi => ?_⟩
  obtain rfl := Option.some.inj (hj.symm.trans hi)
  exact ports

/-- The reference written, the debounce dropped and the line withdrawn, before the clear of UNCALIBRATED (R57). -/
def referenced (n : LineNo) (ref : Nat) (s : State) : State :=
  withdrawConfirm (.line n) (dropDebounce n (s.setLine n
    { s.line n with
      cfg := { (s.line n).cfg with zref := some ref }, deviation := deviationOf (some ref) (s.line n).zf }))

theorem setLearned_eq (n : LineNo) (ref : Nat) (s : State) :
    setLearned n ref s = clear (.uncalibrated n) none (referenced n ref s) := rfl

/-- What the eighth sample leaves of the part but for the line itself (R57). -/
theorem setLearned_frame (n : LineNo) (z ref : Nat) (s : State) : ∀ u, u = setLearned n ref (sampled n z s) →
    u.chan.job = s.chan.job ∧ u.mc = s.mc ∧ u.move = s.move ∧ SameButLatch s.ports u.ports ∧
    u.faults = (clear (.uncalibrated n) none s).faults ∧ .line n ∉ u.chan.confirm := by
  rintro u rfl
  rw [setLearned_eq]
  generalize hv : referenced n ref (sampled n z s) = v
  have same := clear_same v (.uncalibrated n) none
  have latch := clear_latch (.uncalibrated n) none v
  have table : SameTable s v := hv ▸ ⟨rfl, rfl, rfl⟩
  have ports : v.ports = s.ports := hv ▸ rfl
  have job : v.chan.job = s.chan.job := hv ▸ rfl
  have mc : v.mc = s.mc := hv ▸ rfl
  have move : v.move = s.move := hv ▸ rfl
  refine ⟨(congrArg Channel.job same.chan).trans job, same.mc.trans mc, same.move.trans move, ports ▸ latch,
    (clear_table _ _ table).faults, ?_⟩
  rw [same.chan, ← hv]
  simp [referenced, withdrawConfirm]

theorem confirm_endLearn (o : CompletionOutcome) (s : State) : (endLearn o s).chan.confirm = s.chan.confirm := by
  cases h : s.chan.job with
  | none => rw [endLearn_none s o h]
  | some j => rw [endLearn_eq s o h]; rfl

/-- The line that a sample, and the end of its job with it, have been taken to. -/
theorem keptLine_endLearn {l : Line} (o : CompletionOutcome) (n : LineNo) (u : State) (h : KeptLine l (u.line n)) :
    KeptLine l ((endLearn o u).line n) := by
  obtain e | e := line_endLearn u o n <;> rw [e]
  · exact h
  · exact h.trans ⟨_, _, _, _, _, _, rfl⟩

end Sys2Proof.Machine

open Sys2Proof.Machine in
/-- Settles O49, by what the sample finds: it is masked, it is open, it is one before the eighth, or the eighth with a mean at
or below the short floor or above it. -/
theorem learnSamplesMakeTheReference : Obligations.LearnSamplesMakeTheReference := by
  intro n vc ic masked s m hf hreset ht hc he ho hj acc hacc z hz ref href
  refine ⟨_, completion_taken hf hreset (by rw [ht]; rfl), afterResult_store m _ s, ?_⟩
  rw [resultTaken_learn vc ic masked ht hc he ho hj]
  have only : OnlyLine n s (learnSample n vc ic masked s) := (onlyLine_closed n).learnSample s vc ic masked
  refine ⟨fun k hk => (only.afterResult k hk).1, ?_⟩
  have kept : ∀ {l : Line}, KeptLine l ((learnSample n vc ic masked s).line n) →
      l.keptIn ((afterResult m (learnSample n vc ic masked s)).line n) := fun h =>
    (afterResult_line (m := m) only.work.runs h rfl).1
  have sum : ref = learnedReference ((s.line n).accumulator.sum + z) := by rw [href, hacc]; rfl
  change acc = (s.line n).accumulator at hacc
  subst hacc
  cases masked with
  | true =>
    rw [learnSample_masked] at kept ⊢
    refine ⟨fun _ => kept (keptLine_endLearn _ n s (.refl _)), nofun, fun ha hm => ⟨nofun, fun _ => ?_⟩⟩
    obtain ⟨job, learn, faults, ports⟩ :=
      learnEnded_parts (m := m) (u := s) .learnDisturbed hj rfl rfl rfl (.refl _) ha hm _ rfl
    exact ⟨job, learn, fun j hs o hout => by subst hout; exact ⟨fun _ => faults, nofun, ports j hs⟩⟩
  | false =>
    by_cases hopen : z = 65535
    · rw [learnSample_open vc ic (hz ▸ hopen)] at kept ⊢
      refine ⟨fun _ => kept (keptLine_endLearn _ n s (.refl _)), fun _ h => absurd hopen h.ne, fun ha hm =>
        ⟨fun _ h => absurd hopen h.ne, fun _ => ?_⟩⟩
      obtain ⟨job, learn, faults, ports⟩ :=
        learnEnded_parts (m := m) (u := s) .learnOpen hj rfl rfl rfl (.refl _) ha hm _ rfl
      refine ⟨job, learn, fun j hs o hout => ?_⟩
      rw [if_neg Bool.false_ne_true, if_pos hopen] at hout
      subst hout
      exact ⟨fun _ => faults, nofun, ports j hs⟩
    · have sample : KeptLine (s.line n) ((sampled n z s).line n) := by rw [line_sampled]; exact ⟨_, _, _, _, _, _, rfl⟩
      by_cases hcount : (s.line n).accumulator.count + 1 < 8
      · rw [learnSample_counted hz.symm hopen hcount] at kept ⊢
        refine ⟨fun _ => kept sample, fun _ _ h => absurd hcount h.not_gt, fun ha hm => ⟨fun _ _ _ => ?_, fun h => ?_⟩⟩
        · have stands : Stands (sampled n z s) (afterResult m (sampled n z s)) := afterResult_activeStands ha hm
          refine ⟨(line_congr stands.lines n).trans (line_sampled n z s), stands.faults, fun q => ?_⟩
          have port := stands.ports q
          rw [ports_get] at port
          rw [port]
          exact ⟨rfl, rfl⟩
        · obtain h | h | h := h
          · cases h
          · exact absurd h hopen
          · exact absurd hcount h.not_gt
      · have full : 8 ≤ (s.line n).accumulator.count + 1 := Nat.not_lt.mp hcount
        by_cases hshort : ref ≤ (s.line n).cfg.shortFloor
        · rw [learnSample_short hz.symm hopen full (sum ▸ hshort)] at kept ⊢
          refine ⟨fun _ => kept (keptLine_endLearn _ n _ sample), fun _ _ _ h => absurd hshort h.not_ge, fun ha hm =>
            ⟨fun _ _ h => absurd h hcount, fun _ => ?_⟩⟩
          obtain ⟨job, learn, faults, ports⟩ :=
            learnEnded_parts (m := m) (u := sampled n z s) .learnShort hj rfl rfl rfl (.refl _) ha hm _ rfl
          refine ⟨job, learn, fun j hs o hout => ?_⟩
          rw [if_neg Bool.false_ne_true, if_neg hopen, if_pos hshort] at hout
          subst hout
          exact ⟨fun _ => faults, nofun, ports j hs⟩
        · rw [learnSample_done hz.symm hopen full (sum ▸ Nat.not_le.mp hshort), ← sum] at kept ⊢
          obtain ⟨sameJob, mc, move, latch, clears, confirm⟩ := setLearned_frame n z ref s _ rfl
          refine ⟨fun h => ?_, fun _ _ _ _ => kept (keptLine_endLearn _ n _ ?_), fun ha hm =>
            ⟨fun _ _ h => absurd h hcount, fun _ => ?_⟩⟩
          · simp [hopen, hcount, hshort] at h
          · rw [line_setLearned, line_sampled]
            exact ⟨_, _, _, _, _, _, rfl⟩
          · obtain ⟨job, learn, faults, ports⟩ := learnEnded_parts (m := m) .learnDone hj sameJob mc move latch ha hm _ rfl
            refine ⟨job, learn, fun j hs o hout => ?_⟩
            rw [if_neg Bool.false_ne_true, if_neg hopen, if_neg hshort] at hout
            subst hout
            exact ⟨fun h => absurd rfl h, fun _ => ⟨faults.trans clears,
              afterResult_unconfirmed n m (by rw [confirm_endLearn]; exact confirm)⟩, ports j hs⟩
end

section
/-! PROOFS. The standby chosen for a cover, and the grants of the changeover queue as exact next states (R88, R91, R92, R98). -/

namespace Sys2Proof.Machine

variable {s t u : State} {d k x y : AmpNo}

/-! ### The standby chosen (R88) -/

theorem grantable_iff (s : State) (d x : AmpNo) : s.grantable d x = true ↔
    (s.amp x).cfg.role = .standby ∧ (s.amp x).state = .free ∧
      ((s.amp d).carrying = x ∨ ∀ e : AmpNo, (s.amp e).cfg.role = .duty → (s.amp e).carrying ≠ x) := by
  simp [State.grantable, State.carries, mem_allAmps, and_assoc]

/-- The chosen standby is the lowest-numbered grantable one. -/
theorem chosenStandby_iff (s : State) (d x : AmpNo) :
    s.chosenStandby d = some x ↔ s.grantable d x = true ∧ ∀ y, y < x → s.grantable d y = false := by
  have least : ∀ x, s.grantable d x = true → (∀ y, y < x → s.grantable d y = false) → s.chosenStandby d = some x :=
    fun x hx hy => find?_least (s.grantable d) allAmps (by decide) (mem_allAmps x) hx hy
  constructor
  · intro h
    have grants : s.grantable d x = true := List.find?_some h
    refine ⟨grants, fun y hy => Bool.eq_false_iff.mpr fun g => ?_⟩
    obtain ⟨z, hz, below⟩ : ∃ z, s.grantable d z = true ∧ ∀ i, i < z → s.grantable d i = false := by
      obtain ⟨z, hz, min⟩ := WellFounded.has_min (wellFounded_lt (α := AmpNo)) {z | s.grantable d z = true} ⟨y, g⟩
      exact ⟨z, hz, fun i hi => Bool.eq_false_iff.mpr fun e => min i e hi⟩
    obtain rfl := Option.some.inj (h.symm.trans (least z hz below))
    exact Bool.false_ne_true ((below y hy).symm.trans g)
  · exact fun h => least x h.1 h.2

theorem chosenStandby_none : s.chosenStandby d = none ↔ ∀ x, s.grantable d x = false := by
  simp [State.chosenStandby, mem_allAmps]

theorem chosen_free (h : s.chosenStandby d = some x) : (s.amp x).state = .free :=
  ((grantable_iff s d x).mp ((chosenStandby_iff s d x).mp h).1).2.1

/-! ### What may be granted from one state to the next (R88, R91) -/

/-- From `s` to `t` no standby has become grantable, and emergency stands. -/
structure GrantsFewer (s t : State) : Prop where
  standby : ∀ d y, t.grantable d y = true → s.grantable d y = true
  emergency : t.emergency = s.emergency

namespace GrantsFewer

theorem refl (s : State) : GrantsFewer s s := ⟨fun _ _ => id, rfl⟩

theorem trans (h : GrantsFewer s t) (g : GrantsFewer t u) : GrantsFewer s u :=
  ⟨fun d y hu => h.standby d y (g.standby d y hu), g.emergency.trans h.emergency⟩

theorem of_amps (ha : t.amps = s.amps) (hm : t.mc = s.mc) : GrantsFewer s t := by
  have amp := fun k => amp_congr ha k
  have grantable : ∀ d y, t.grantable d y = s.grantable d y := fun d y => by
    simp only [State.grantable, State.carries, amp]
  exact ⟨fun d y h => (grantable d y).symm.trans h, by simp only [State.emergency, hm]⟩

theorem of_table (h : SameButTable s t) : GrantsFewer s t := .of_amps h.amps h.mc

/-- A record that keeps its role and its carrying amplifier, and is not FREE where it was not. -/
theorem of_amp (s : State) (k : AmpNo) {a : Amp} (hr : a.cfg.role = (s.amp k).cfg.role)
    (hc : a.carrying = (s.amp k).carrying) (hf : a.state = .free → (s.amp k).state = .free) :
    GrantsFewer s (s.setAmp k a) := by
  have role : ∀ j, ((s.setAmp k a).amp j).cfg.role = (s.amp j).cfg.role := fun j => by
    rw [amp_setAmp]; split
    · next e => rw [e, hr]
    · rfl
  have carrying : ∀ j, ((s.setAmp k a).amp j).carrying = (s.amp j).carrying := fun j => by
    rw [amp_setAmp]; split
    · next e => rw [e, hc]
    · rfl
  have free : ∀ j, ((s.setAmp k a).amp j).state = .free → (s.amp j).state = .free := fun j => by
    rw [amp_setAmp]; split
    · next e => rw [e]; exact hf
    · exact id
  refine ⟨fun d y h => ?_, rfl⟩
  rw [grantable_iff] at h ⊢
  simp only [role, carrying] at h
  exact ⟨h.1, free y h.2.1, h.2.2⟩

theorem setAmpState (s : State) (k : AmpNo) {st : AmpState} (h : st ≠ .free) : GrantsFewer s (setAmpState k st s) := by
  unfold Machine.setAmpState; dsimp only; split
  · exact .refl s
  · exact .of_amp s k rfl rfl fun e => absurd e h

theorem none (h : GrantsFewer s t) (hs : s.chosenStandby d = none) : t.chosenStandby d = none :=
  chosenStandby_none.mpr fun y => Bool.eq_false_iff.mpr fun e =>
    Bool.false_ne_true ((chosenStandby_none.mp hs y).symm.trans (h.standby d y e))

/-- The chosen standby is chosen again where it is grantable still. -/
theorem some (h : GrantsFewer s t) (hs : s.chosenStandby d = some x) (hx : t.grantable d x = true) :
    t.chosenStandby d = some x :=
  (chosenStandby_iff t d x).mpr ⟨hx, fun y hy => Bool.eq_false_iff.mpr fun e =>
    Bool.false_ne_true ((((chosenStandby_iff s d x).mp hs).2 y hy).symm.trans (h.standby d y e))⟩

theorem passesOver (h : GrantsFewer s t) {e : CoEntry} (hs : s.passesOver e = true) : t.passesOver e = true := by
  simp only [State.passesOver, Bool.or_eq_true, Bool.and_eq_true, Option.isNone_iff_eq_none, h.emergency] at hs ⊢
  exact hs.imp_right fun g => ⟨g.1, h.none g.2⟩

end GrantsFewer

/-! ### Moves (R7) -/

theorem moveLines_frame (s : State) (x y : AmpNo) : MoveFrame s (moveLines x y s) := by
  obtain ⟨frame, -⟩ := foldl_moveLine y _ (nodup_moved s x) s
  exact ⟨⟨frame.work.amps, frame.work.co, frame.work.mc, frame.work.store, frame.work.pending⟩, frame.faults, frame.verify,
    frame.confirm, frame.round⟩

theorem line_moveLines (s : State) (x y : AmpNo) (n : LineNo) :
    (moveLines x y s).line n = if (s.line n).current = x then s.movedLine n y else s.line n := by
  obtain ⟨-, lines⟩ := foldl_moveLine y _ (nodup_moved s x) s
  simp only [mem_moved] at lines
  exact lines n

/-- A move that starts a relay operation waits for it. -/
theorem moveLines_waits (h : s.moveStarts x y = true) : (moveLines x y s).move ≠ some [] := by
  obtain ⟨n, -, hn⟩ := List.any_eq_true.mp h
  simp only [Bool.and_eq_true, decide_eq_true_eq] at hn
  intro e
  have mem : n ∈ ((allLines.filter fun n => (s.line n).current = x).filter
      fun n => (s.line n).state = .connected ∧ (s.line n).selector ≠ .bus y) := by
    simpa [mem_allLines] using ⟨⟨hn.1.2, hn.2⟩, hn.1.1⟩
  rw [Option.some.inj e] at mem
  cases mem

theorem moveStarts_congr (h : t.lines = s.lines) (x y : AmpNo) : t.moveStarts x y = s.moveStarts x y := by
  have line := fun n => line_congr h n
  simp only [State.moveStarts, line]

theorem afterGrantMove_waits (arr : Arrive) (o : Operation) (h : s.move ≠ some []) : afterGrantMove arr o s = s := if_neg h

/-! ### Grants (R91, R92, R98) -/

/-- The operation that the grant of a COVER entry to `x` starts (R92). -/
def CoEntry.covering (e : CoEntry) (x : AmpNo) : Operation :=
  ⟨.cover, e.duty, x, e.origin, e.requester, e.seq, none, .moving⟩

/-- The operation that the grant of a RETURN entry starts, from amplifier `x` (R98). -/
def CoEntry.returning (e : CoEntry) (x : AmpNo) (carried : Option Word) : Operation :=
  ⟨.returnLines, e.duty, x, e.origin, e.requester, e.seq, some (carried.getD e.seq), .moving⟩

/-- The entry of `d` taken out of the queue, and the operation in flight. -/
def State.operated (s : State) (d : AmpNo) (o : Operation) : State :=
  { removeEntry d s with co := { (removeEntry d s).co with op := some o } }

/-- The standby BUSY with the duty amplifier (R92). -/
def State.busied (s : State) (x d : AmpNo) : State :=
  (setAmpState x .busy s).setAmp x { (setAmpState x .busy s).amp x with coveredAmp := some d }

/-- The grant of a COVER entry up to its move (R92). -/
def coverBegun (e : CoEntry) (x : AmpNo) (s : State) : State :=
  clear (.noCover e.duty) none ((s.operated e.duty (e.covering x)).busied x e.duty)

theorem grantCover_eq (arr : Arrive) (e : CoEntry) (x : AmpNo) (s : State) : grantCover arr e x s =
    afterGrantMove arr (e.covering x)
      (setCarrying e.duty x (moveLines ((coverBegun e x s).amp e.duty).carrying x (coverBegun e x s))) := rfl

theorem grantReturn_eq (arr : Arrive) (e : CoEntry) (s : State) : grantReturn arr e s =
    afterGrantMove arr (e.returning (s.amp e.duty).carrying (s.amp e.duty).coverSeq)
      (setCarrying e.duty e.duty (moveLines (s.amp e.duty).carrying e.duty
        (s.operated e.duty (e.returning (s.amp e.duty).carrying (s.amp e.duty).coverSeq)))) := rfl

theorem amp_busied (s : State) (h : (s.amp x).state = .free) (d j : AmpNo) : (s.busied x d).amp j =
    if j = x then { s.amp x with state := .busy, stamp := (s.amp x).stamp + 1, coveredAmp := some d } else s.amp j := by
  have busy : (s.amp x).state ≠ .busy := by rw [h]; decide
  unfold State.busied
  rw [amp_setAmp]
  by_cases hj : j = x <;> simp [hj, amp_setAmpState, busy]

/-- A grant writes amplifier records, the changeover state and the table, and moves lines. -/
theorem busied_frame (s : State) (x d : AmpNo) : (s.busied x d).lines = s.lines ∧ (s.busied x d).co = s.co ∧
    (s.busied x d).mc = s.mc ∧ (s.busied x d).chan = s.chan ∧ (s.busied x d).faults = s.faults ∧
    (s.busied x d).ports = s.ports ∧ (s.busied x d).move = s.move := by
  unfold State.busied setAmpState
  dsimp only
  split
  · exact ⟨rfl, rfl, rfl, rfl, rfl, rfl, rfl⟩
  · exact ⟨rfl, rfl, rfl, rfl, rfl, rfl, rfl⟩

/-- The state of a COVER grant up to its move, part by part. -/
structure CoverBegun (e : CoEntry) (x : AmpNo) (s t : State) : Prop where
  co : t.co = { s.co with queue := s.co.queue.filter (·.duty ≠ e.duty), op := some (e.covering x) }
  standby : t.amp x = { s.amp x with state := .busy, stamp := (s.amp x).stamp + 1, coveredAmp := some e.duty }
  others : ∀ j, j ≠ x → t.amp j = s.amp j
  lines : t.lines = s.lines
  mc : t.mc = s.mc
  chan : t.chan = s.chan
  move : t.move = s.move
  ports : SameButLatch s.ports t.ports
  faults : t.faults = (clear (.noCover e.duty) none s).faults

theorem coverBegun_parts (e : CoEntry) (h : (s.amp x).state = .free) : CoverBegun e x s (coverBegun e x s) := by
  obtain ⟨lines, co, mc, chan, faults, ports, move⟩ := busied_frame (s.operated e.duty (e.covering x)) x e.duty
  have amps := amp_busied (s.operated e.duty (e.covering x)) (x := x) h e.duty
  unfold coverBegun
  generalize (s.operated e.duty (e.covering x)).busied x e.duty = v at *
  have same := clear_same v (.noCover e.duty) none
  have latch := clear_latch (.noCover e.duty) none v
  have table : SameTable s v := ⟨faults, listeners_of_port fun p => by rw [port_congr ports]; rfl,
    congrArg Channel.roundNumber chan⟩
  refine ⟨same.co.trans co, ?_, fun j hj => ?_, same.lines.trans lines, same.mc.trans mc, same.chan.trans chan,
    same.move.trans move, ?_, (clear_table _ _ table).faults⟩
  · rw [amp_congr same.amps, amps, if_pos rfl]; rfl
  · rw [amp_congr same.amps, amps, if_neg hj]; rfl
  · rw [ports] at latch; exact latch

/-- What a grant leaves that waits for the relay operations of its move (R92, R98). -/
structure Granted (e : CoEntry) (o : Operation) (y : AmpNo) (s t : State) : Prop where
  co : t.co = { s.co with queue := s.co.queue.filter (·.duty ≠ e.duty), op := some o }
  duty : t.amp e.duty = { s.amp e.duty with carrying := y }

/-- The grant of a RETURN entry whose move starts a relay operation (R98). -/
theorem grantReturn_moves (arr : Arrive) (e : CoEntry) (hm : s.moveStarts (s.amp e.duty).carrying e.duty = true) :
    Granted e (e.returning (s.amp e.duty).carrying (s.amp e.duty).coverSeq) e.duty s (grantReturn arr e s) ∧
      (grantReturn arr e s).faults = s.faults := by
  rw [grantReturn_eq]
  generalize hv : s.operated e.duty (e.returning (s.amp e.duty).carrying (s.amp e.duty).coverSeq) = v
  have starts : v.moveStarts (s.amp e.duty).carrying e.duty = true :=
    (moveStarts_congr (by rw [← hv]; rfl) _ _).trans hm
  have frame := moveLines_frame v (s.amp e.duty).carrying e.duty
  have waits : (setCarrying e.duty e.duty (moveLines (s.amp e.duty).carrying e.duty v)).move ≠ some [] :=
    moveLines_waits starts
  rw [afterGrantMove_waits arr _ waits]
  refine ⟨⟨frame.work.co.trans (by rw [← hv]; rfl), ?_⟩, frame.faults.trans (by rw [← hv]; rfl)⟩
  rw [setCarrying, amp_setAmp_same, amp_congr frame.work.amps, ← hv]
  rfl

/-- The grant of a COVER entry whose move starts a relay operation (R92). -/
theorem grantCover_moves (arr : Arrive) (e : CoEntry) (hx : (s.amp x).state = .free) (hne : e.duty ≠ x)
    (hm : s.moveStarts (s.amp e.duty).carrying x = true) :
    Granted e (e.covering x) x s (grantCover arr e x s) ∧
      (grantCover arr e x s).amp x =
        { s.amp x with state := .busy, stamp := (s.amp x).stamp + 1, coveredAmp := some e.duty } ∧
      (grantCover arr e x s).faults = (clear (.noCover e.duty) none s).faults := by
  have begun := coverBegun_parts e hx
  rw [grantCover_eq]
  generalize coverBegun e x s = v at begun
  have starts : v.moveStarts (v.amp e.duty).carrying x = true := by
    rw [begun.others _ hne, moveStarts_congr begun.lines]
    exact hm
  have frame := moveLines_frame v (v.amp e.duty).carrying x
  have waits : (setCarrying e.duty x (moveLines (v.amp e.duty).carrying x v)).move ≠ some [] := moveLines_waits starts
  rw [afterGrantMove_waits arr _ waits]
  refine ⟨⟨frame.work.co.trans begun.co, ?_⟩, ?_, frame.faults.trans begun.faults⟩
  · rw [setCarrying, amp_setAmp_same, amp_congr frame.work.amps, begun.others _ hne]
  · rw [setCarrying, amp_setAmp_ne _ _ _ _ hne.symm, amp_congr frame.work.amps, begun.standby]

/-! ### The entry that is served (R91) -/

theorem qualifies_of {e : CoEntry} (ho : s.emergency = false ∨ e.origin = .auto)
    (hk : e.kind = .returnLines ∨ ∃ x, s.chosenStandby e.duty = some x) : s.qualifies e = true := by
  unfold State.qualifies
  cases hkind : e.kind <;> cases horigin : e.origin <;> simp [hkind, horigin] at ho hk ⊢
  · obtain ⟨x, hx⟩ := hk
    simp [hx]
  · obtain ⟨x, hx⟩ := hk
    simp [hx, ho]
  · exact ho

/-- A grant attempt serves the first entry that qualifies (R91). -/
theorem grantAttempt_serves (arr : Arrive) {pre rest : List CoEntry} {e : CoEntry} (hq : s.co.queue = pre ++ e :: rest)
    (hop : s.co.op = none) (hr : s.runs = true) (hp : ∀ x ∈ pre, s.passesOver x = true) (he : s.qualifies e = true) :
    grantAttempt arr s = grantEntry arr e s := by
  have first : s.co.queue.find? s.qualifies = some e := by
    rw [hq, List.find?_append, List.find?_eq_none.mpr fun x hx => by simp [passesOver_eq s x (hp x hx)]]
    simp [he]
  simp [grantAttempt, hop, hr, first]

theorem filter_served {pre rest : List CoEntry} {e : CoEntry} (h : ∀ x ∈ pre ++ rest, x.duty ≠ e.duty) :
    (pre ++ e :: rest).filter (·.duty ≠ e.duty) = pre ++ rest := by
  have kept : (pre ++ rest).filter (·.duty ≠ e.duty) = pre ++ rest :=
    List.filter_eq_self.mpr fun x hx => by simpa using h x hx
  rw [List.filter_append, List.filter_cons_of_neg (by simp), ← List.filter_append, kept]

/-! ### The statement's words (R88, R91) -/

theorem chosenStandby_spec (s : State) (d x : AmpNo) : s.chosenStandby d = some x ↔
    ((s.amp x).cfg.role = .standby ∧ (s.amp x).state = .free ∧
      ((s.amp d).carrying = x ∨ ∀ e : AmpNo, (s.amp e).cfg.role = .duty → (s.amp e).carrying ≠ x)) ∧
    ∀ y : AmpNo, y < x → ¬((s.amp y).cfg.role = .standby ∧ (s.amp y).state = .free ∧
      ((s.amp d).carrying = y ∨ ∀ e : AmpNo, (s.amp e).cfg.role = .duty → (s.amp e).carrying ≠ y)) := by
  simp only [chosenStandby_iff, ← grantable_iff, Bool.not_eq_true]

theorem grantAttempt_idle (arr : Arrive) (h : s.co.op.isSome ∨ s.runs = false) : grantAttempt arr s = s :=
  if_pos (h.imp_right fun hr => by simp [hr])

section Serves
variable {arr : Arrive} {pre rest : List CoEntry} {e : CoEntry} (hq : s.co.queue = pre ++ e :: rest) (hop : s.co.op = none)
  (hr : s.runs = true) (hp : ∀ z ∈ pre, s.passesOver z = true) (ho : s.emergency = false ∨ e.origin = .auto)
  (hd : ∀ z ∈ pre ++ rest, z.duty ≠ e.duty)
include hq hop hr hp ho hd

theorem grantAttempt_return (hk : e.kind = .returnLines) (hm : s.moveStarts (s.amp e.duty).carrying e.duty = true) :
    (grantAttempt arr s).co = { s.co with
      queue := pre ++ rest, op := some (e.returning (s.amp e.duty).carrying (s.amp e.duty).coverSeq) } ∧
    (grantAttempt arr s).amp e.duty = { s.amp e.duty with carrying := e.duty } ∧
    (grantAttempt arr s).faults = s.faults := by
  obtain ⟨granted, faults⟩ := grantReturn_moves arr e hm
  rw [grantAttempt_serves arr hq hop hr hp (qualifies_of ho (.inl hk)), grantEntry, hk]
  refine ⟨?_, granted.duty, faults⟩
  rw [granted.co, hq, filter_served hd]

theorem grantAttempt_cover (hx : s.chosenStandby e.duty = some x) (hk : e.kind = .cover)
    (hm : s.moveStarts (s.amp e.duty).carrying x = true) (hne : e.duty ≠ x) :
    (grantAttempt arr s).co = { s.co with queue := pre ++ rest, op := some (e.covering x) } ∧
    (grantAttempt arr s).amp x =
      { s.amp x with state := .busy, stamp := (s.amp x).stamp + 1, coveredAmp := some e.duty } ∧
    (grantAttempt arr s).amp e.duty = { s.amp e.duty with carrying := x } ∧
    (grantAttempt arr s).faults = (clear (.noCover e.duty) none s).faults := by
  obtain ⟨granted, standby, faults⟩ := grantCover_moves arr e (chosen_free hx) hne hm
  have serves : grantEntry arr e s = grantCover arr e x s := by rw [grantEntry, hk]; dsimp only; rw [hx]
  rw [grantAttempt_serves arr hq hop hr hp (qualifies_of ho (.inr ⟨x, hx⟩)), serves]
  refine ⟨?_, standby, granted.duty, faults⟩
  rw [granted.co, hq, filter_served hd]

end Serves

end Sys2Proof.Machine
end

section
/-! PROOFS. What a grant attempt leaves of the amplifiers and the ports, and the entries that join behind an operation that
has ended (R90, R91, R97, R100, R101). -/

namespace Sys2Proof.Machine

variable {s t u : State} {d k x y : AmpNo}

/-! ### Completions of a learn job that a move ends (R58) -/

/-- From `s` to `t` completions are handed on at most, and none where there is no learn job. -/
structure JobHandsOn (s t : State) : Prop where
  grows : ∀ p, (s.port p).completions <+: (t.port p).completions
  job : JobFree s t
  quiet : s.chan.job = none → SameButLatch s.ports t.ports

namespace JobHandsOn

theorem of_latch (hj : t.chan.job = s.chan.job) (hp : SameButLatch s.ports t.ports) : JobHandsOn s t := by
  refine ⟨fun p => ?_, .of_job hj, fun _ => hp⟩
  have port := hp p
  rw [ports_get] at port
  rw [port]
  exact List.prefix_refl _

theorem of_same (hj : t.chan.job = s.chan.job) (hp : t.ports = s.ports) : JobHandsOn s t := .of_latch hj (hp ▸ .refl _)

theorem refl (s : State) : JobHandsOn s s := .of_same rfl rfl

theorem trans (h : JobHandsOn s t) (g : JobHandsOn t u) : JobHandsOn s u :=
  ⟨fun p => (h.grows p).trans (g.grows p), g.job ∘ h.job, fun hs => (h.quiet hs).trans (g.quiet (h.job hs))⟩

end JobHandsOn

theorem completions_handedOn (r : Option Requester) (o : CompletionOutcome) (X : PerPort PortState) (p : Port) :
    (X.get p).completions <+: ((handedOn r o X).get p).completions := by
  unfold handedOn
  split
  · exact List.prefix_refl _
  · dsimp only; split
    · next w _ =>
      by_cases hp : p = w.port
      · subst hp; simp
      · rw [PerPort.get_set_ne _ _ _ _ hp]
    · exact List.prefix_refl _

theorem orderSelector_handsOn (s : State) (n : LineNo) (pos : Selector) : JobHandsOn s (orderSelector n pos s) := by
  by_cases h : (s.line n).selector = pos
  · rw [orderSelector_held s n h]; exact .refl s
  · rw [orderSelector_eq s n h]
    cases hl : s.learnsOn n with
    | false => exact .of_same rfl rfl
    | true =>
      obtain ⟨j, hj, -⟩ := (learnsOn_iff s n).mp hl
      have some : s.chan.job ≠ none := by rw [hj]; nofun
      exact ⟨completions_handedOn _ _ s.ports, fun hs => absurd hs some, fun hs => absurd hs some⟩

theorem moveLine_handsOn (s : State) (z : AmpNo) (n : LineNo) : JobHandsOn s (moveLine z s n) := by
  unfold moveLine; dsimp only; split
  · refine .trans ?_ (orderSelector_handsOn _ n _)
    exact .of_same rfl rfl
  · exact .of_same rfl rfl

theorem moveLines_handsOn (s : State) (x y : AmpNo) : JobHandsOn s (moveLines x y s) := by
  have moved : ∀ (l : List LineNo) (s : State), JobHandsOn s (l.foldl (moveLine y) s) := by
    intro l
    induction l with
    | nil => exact .refl
    | cons n l ih => exact fun s => (moveLine_handsOn s y n).trans (ih _)
  exact (moved _ s).trans (.of_same rfl rfl)

/-! ### A grant attempt as a whole (R91) -/

/-- What a grant attempt leaves of the amplifiers that are not FREE, of the ports, and of the move that is waited for. -/
structure Attempted (s t : State) : Prop where
  state : ∀ k, (s.amp k).state ≠ .free → (t.amp k).state = (s.amp k).state
  cover : ∀ k, (t.amp k).coveringStandby = (s.amp k).coveringStandby ∧ (t.amp k).coverSeq = (s.amp k).coverSeq
  hands : JobHandsOn s t
  move : s.move ≠ some [] → t.move ≠ some []

theorem Attempted.refl (s : State) : Attempted s s := ⟨fun _ _ => rfl, fun _ => ⟨rfl, rfl⟩, .refl s, id⟩

/-- A move that a grant has started is done, or waits for a relay operation. -/
theorem afterGrantMove_id_parts (o : Operation) (s : State) : (afterGrantMove id o s).amps = s.amps ∧
    (afterGrantMove id o s).ports = s.ports ∧ (afterGrantMove id o s).chan.job = s.chan.job ∧
    (afterGrantMove id o s).move ≠ some [] := by
  unfold afterGrantMove; split
  · unfold beginVerify
    rw [placeVerify_id]
    exact ⟨rfl, rfl, rfl, nofun⟩
  · next h => exact ⟨rfl, rfl, rfl, h⟩

/-- The end of a grant: the lines moved, the carrying amplifier set, and the move reported. -/
theorem Attempted.moved {w : State} (h : ∀ k, (s.amp k).state ≠ .free → (w.amp k).state = (s.amp k).state)
    (hc : ∀ k, (w.amp k).coveringStandby = (s.amp k).coveringStandby ∧ (w.amp k).coverSeq = (s.amp k).coverSeq)
    (hp : JobHandsOn s w) (o : Operation) (d x y z : AmpNo) :
    Attempted s (afterGrantMove id o (setCarrying d z (moveLines x y w))) := by
  obtain ⟨amps, ports, job, move⟩ := afterGrantMove_id_parts o (setCarrying d z (moveLines x y w))
  have moved := moveLines_frame w x y
  have own : ∀ k, ((setCarrying d z (moveLines x y w)).amp k).state = (w.amp k).state ∧
      ((setCarrying d z (moveLines x y w)).amp k).coveringStandby = (w.amp k).coveringStandby ∧
      ((setCarrying d z (moveLines x y w)).amp k).coverSeq = (w.amp k).coverSeq := fun k => by
    rw [setCarrying, amp_setAmp]; split
    · next e => rw [e, amp_congr moved.work.amps]; exact ⟨rfl, rfl, rfl⟩
    · rw [amp_congr moved.work.amps]; exact ⟨rfl, rfl, rfl⟩
  refine ⟨fun k hk => ?_, fun k => ?_, (hp.trans (moveLines_handsOn w x y)).trans (.of_same job ports), fun _ => move⟩
  · rw [amp_congr amps, (own k).1]; exact h k hk
  · rw [amp_congr amps, (own k).2.1, (own k).2.2]; exact hc k

theorem grantAttempt_attempted (s : State) : Attempted s (grantAttempt id s) := by
  unfold grantAttempt; split
  · exact .refl s
  · split
    · next e _ =>
      unfold grantEntry; split
      · split
        · next x hx =>
          have begun := coverBegun_parts e (chosen_free hx)
          rw [grantCover_eq]
          refine .moved (fun k hk => ?_) (fun k => ?_) (.of_latch (by rw [begun.chan]) begun.ports) _ _ _ _ _
          · rw [begun.others k fun e => hk (e ▸ chosen_free hx)]
          · by_cases hk : k = x
            · rw [hk, begun.standby]; exact ⟨rfl, rfl⟩
            · rw [begun.others k hk]; exact ⟨rfl, rfl⟩
        · exact .refl s
      · rw [grantReturn_eq]
        refine .moved ?_ ?_ ?_ _ _ _ _ _
        · exact fun _ _ => rfl
        · exact fun _ => ⟨rfl, rfl⟩
        · exact .of_same rfl rfl
    · exact .refl s

/-- While a measurement is in flight the verify that a grant asks for waits (R32). -/
theorem grantAttempt_inFlight (h : s.chan.inFlight.isSome) : grantAttempt arrival s = grantAttempt id s := by
  have after : ∀ (o : Operation) (w : State), w.chan.inFlight.isSome →
      afterGrantMove arrival o w = afterGrantMove id o w := fun o w hw => by
    unfold afterGrantMove beginVerify; split
    · exact placeVerify_inFlight _ _ hw
    · rfl
  have moves : ∀ (d x y z : AmpNo) (w : State), w.chan.inFlight.isSome →
      (setCarrying d z (moveLines x y w)).chan.inFlight.isSome := fun d x y z w hw =>
    (chanKept_closed.moveLines w x y).inFlight.trans hw
  unfold grantAttempt; split
  · rfl
  · split
    · next e _ =>
      unfold grantEntry; split
      · split
        · next x hx =>
          have begun := coverBegun_parts e (chosen_free hx)
          rw [grantCover_eq, grantCover_eq]
          exact after _ _ (moves _ _ _ _ _ (by rw [begun.chan]; exact h))
        · rfl
      · rw [grantReturn_eq, grantReturn_eq]
        exact after _ _ (moves _ _ _ _ _ h)
    · rfl

/-! ### Entries that join (R87, R90) -/

/-- An AUTO entry stands behind AUTO entries alone. -/
theorem insertEntry_split (e : CoEntry) (he : e.origin = .auto) (l : List CoEntry) :
    ∃ pre rest, insertEntry e l = pre ++ e :: rest ∧ ∀ z ∈ pre, z ∈ l ∧ z.origin = .auto := by
  induction l with
  | nil => exact ⟨[], [], rfl, nofun⟩
  | cons z l ih =>
    unfold insertEntry; split
    · exact ⟨[], z :: l, rfl, nofun⟩
    · next hb =>
      obtain ⟨pre, rest, h, hp⟩ := ih
      have auto : z.origin = .auto := by
        cases hz : z.origin with
        | auto => rfl
        | manual => simp [CoEntry.before, he, hz] at hb
      refine ⟨z :: pre, rest, by rw [h]; rfl, fun w hw => ?_⟩
      obtain rfl | hw := List.mem_cons.mp hw
      · exact ⟨by simp, auto⟩
      · exact ⟨List.mem_cons_of_mem _ (hp w hw).1, (hp w hw).2⟩

theorem mem_insertEntry {e z : CoEntry} {l : List CoEntry} : z ∈ insertEntry e l ↔ z = e ∨ z ∈ l :=
  (insertEntry_perm e l).mem_iff.trans List.mem_cons

/-- Where no standby is grantable to `d`, an AUTO COVER of `d` passes over. -/
theorem passesOver_cover (s : State) {e : CoEntry} (hk : e.kind = .cover) (h : s.chosenStandby e.duty = none) :
    s.passesOver e = true := by
  simp [State.passesOver, hk, h]

/-- An entry that passes over and is AUTO is a COVER. -/
theorem cover_of_passesOver {e : CoEntry} (ho : e.origin = .auto) (h : s.passesOver e = true) : e.kind = .cover := by
  simp only [State.passesOver, ho, reduceCtorEq, decide_false, Bool.false_and, Bool.false_or, Bool.and_eq_true,
    decide_eq_true_eq] at h
  exact h.1

/-- The queue in which nothing qualifies. -/
def State.waits (s : State) : Prop := ∀ e ∈ s.co.queue, s.passesOver e = true

theorem GrantsFewer.waits (h : GrantsFewer s t) (hq : t.co.queue = s.co.queue) (hs : s.waits) : t.waits := fun e he =>
  h.passesOver (hs e (hq ▸ he))

theorem State.waits.joined (hs : s.waits) {e : CoEntry} (he : s.passesOver e = true) : (joinEntry e s).waits := by
  intro z hz
  have passes : (joinEntry e s).passesOver z = s.passesOver z := rfl
  rw [passes]
  obtain rfl | hz := mem_insertEntry.mp hz
  · exact he
  · exact hs z hz

/-- An AUTO COVER that joins a queue in which nothing qualifies, with no standby for it: NO_COVER is raised, and it waits
(R90). -/
theorem rejoinAutoCover_waits (hs : s.waits) (hc : s.chosenStandby d = none) (q : Word) (r : Option Requester) :
    ∀ e, e = (⟨d, .cover, .auto, r, q⟩ : CoEntry) →
    rejoinAutoCover d q r s = raise (.noCover d) none (joinEntry e s) ∧ (rejoinAutoCover d q r s).waits := by
  rintro e rfl
  obtain ⟨pre, rest, split, before⟩ := insertEntry_split ⟨d, .cover, .auto, r, q⟩ rfl s.co.queue
  have joined : (joinEntry ⟨d, .cover, .auto, r, q⟩ s).waits := hs.joined (passesOver_cover s rfl hc)
  have raised : rejoinAutoCover d q r s = raise (.noCover d) none (joinEntry ⟨d, .cover, .auto, r, q⟩ s) := by
    obtain ⟨z, hz, kind, origin⟩ : ∃ z, (insertEntry ⟨d, .cover, .auto, r, q⟩ s.co.queue).find? (·.duty = d) = some z ∧
        z.kind = .cover ∧ z.origin = .auto := by
      rw [split, List.find?_append]
      cases hf : pre.find? (·.duty = d) with
      | none => exact ⟨⟨d, .cover, .auto, r, q⟩, by simp, rfl, rfl⟩
      | some z =>
        obtain ⟨mem, auto⟩ := before z (List.mem_of_find?_eq_some hf)
        exact ⟨z, rfl, cover_of_passesOver auto (hs z mem), auto⟩
    have entry : (joinEntry ⟨d, .cover, .auto, r, q⟩ s).co.entryOf d = some z := hz
    have chosen : (joinEntry ⟨d, .cover, .auto, r, q⟩ s).chosenStandby d = none := hc
    unfold rejoinAutoCover raiseNoCover
    rw [entry]
    simp [kind, origin, chosen]
  have same := raise_same (joinEntry ⟨d, .cover, .auto, r, q⟩ s) (.noCover d) none
  refine ⟨raised, ?_⟩
  rw [raised]
  exact (GrantsFewer.of_table same).waits (by rw [same.co]) joined

/-- An AUTO COVER that joins with a standby grantable to it raises nothing (R90). -/
theorem rejoinAutoCover_served (hc : s.chosenStandby d = some x) (q : Word) (r : Option Requester) :
    rejoinAutoCover d q r s = joinEntry ⟨d, .cover, .auto, r, q⟩ s := by
  have chosen : (joinEntry ⟨d, .cover, .auto, r, q⟩ s).chosenStandby d = some x := hc
  unfold rejoinAutoCover raiseNoCover
  split
  · simp [chosen]
  · rfl

end Sys2Proof.Machine
end

section
/-! PROOFS. The end of an operation and the entry that joins behind it, with the grant attempt that follows (R91, R97, R100,
R101). -/

namespace Sys2Proof.Machine

variable {s t u v : State} {d k x y : AmpNo}

/-! ### An operation over (R91) -/

/-- The state when the operation in flight is over and its completion, if any, has been handed on. -/
def State.operationOver (o : Option CompletionOutcome) (s : State) : State :=
  { s with
    co := { s.co with op := none }
    ports := match o with
      | some c => handedOn (s.co.op.bind (·.requester)) c s.ports
      | none => s.ports }

/-- The end of an operation while the part is not STOPPING. -/
theorem endOperation_eq (arr : Arrive) (o : Option CompletionOutcome) (rejoin : State → State) (s : State)
    (h : (rejoin (s.operationOver o)).mc.mode ≠ .stopping) :
    endOperation arr o rejoin s = grantAttempt arr (rejoin (s.operationOver o)) := by
  have ended : endOperation arr o rejoin s = if (rejoin (s.operationOver o)).mc.mode = .stopping then
      checkStopped (rejoin (s.operationOver o)) else grantAttempt arr (rejoin (s.operationOver o)) := by
    unfold endOperation State.operationOver
    cases o with
    | none => rfl
    | some c => dsimp only; rw [completeIfAny_eq]
  rw [ended, if_neg h]

theorem operationOver_ports (o : Option CompletionOutcome) (s : State) : SameButCompletions s.ports (s.operationOver o).ports := by
  cases o with
  | none => exact .refl _
  | some c => exact handedOn_completions _ c s.ports

/-- The table sees no completion. -/
theorem operationOver_table (o : Option CompletionOutcome) (s : State) : SameTable s (s.operationOver o) := by
  refine ⟨rfl, listeners_of_port fun p => ?_, rfl⟩
  have port := operationOver_ports o s p
  rw [ports_get, ports_get] at port
  rw [port]

theorem operationOver_fewer (o : Option CompletionOutcome) (s : State) : GrantsFewer s (s.operationOver o) := .of_amps rfl rfl

/-! ### What joins, and the attempt that follows (R90, R91) -/

namespace Attempted

theorem trans (h : Attempted s t) (g : Attempted t u) : Attempted s u where
  state k hk := (g.state k (by rw [h.state k hk]; exact hk)).trans (h.state k hk)
  cover k := ⟨(g.cover k).1.trans (h.cover k).1, (g.cover k).2.trans (h.cover k).2⟩
  hands := h.hands.trans g.hands
  move hm := g.move (h.move hm)

theorem of_amps (ha : t.amps = s.amps) (hh : JobHandsOn s t) (hm : t.move = s.move) : Attempted s t where
  state k _ := by rw [amp_congr ha]
  cover k := by rw [amp_congr ha]; exact ⟨rfl, rfl⟩
  hands := hh
  move h := by rw [hm]; exact h

end Attempted

/-- An entry joins, and NO_COVER is raised or it is not. -/
theorem rejoinAutoCover_frame (d : AmpNo) (q : Word) (r : Option Requester) (v : State) :
    SameButTable (joinEntry ⟨d, .cover, .auto, r, q⟩ v) (rejoinAutoCover d q r v) ∧
      SameButLatch v.ports (rejoinAutoCover d q r v).ports := by
  refine ⟨raiseNoCover_same _ d, ?_⟩
  unfold rejoinAutoCover raiseNoCover
  split
  · split
    · exact raise_latch _ _ _
    · exact .refl _
  · exact .refl _

theorem rejoinAutoCover_attempted (d : AmpNo) (q : Word) (r : Option Requester) (v : State) :
    Attempted v (grantAttempt id (rejoinAutoCover d q r v)) := by
  obtain ⟨same, ports⟩ := rejoinAutoCover_frame d q r v
  exact (Attempted.of_amps (s := v) same.amps (.of_latch (congrArg Channel.job same.chan) ports) same.move).trans
    (grantAttempt_attempted _)

section Rejoin
variable (q : Word) (r : Option Requester)

/-- The entry waits where nothing in the queue qualifies and no standby is grantable to it. -/
theorem rejoined_waits (arr : Arrive) (hv : v.waits) (hc : v.chosenStandby d = none) :
    ∀ t, t = grantAttempt arr (rejoinAutoCover d q r v) →
      t.co = { v.co with queue := insertEntry ⟨d, .cover, .auto, r, q⟩ v.co.queue } ∧ t.amps = v.amps ∧
      t.faults = (raise (.noCover d) none v).faults := by
  rintro t rfl
  obtain ⟨raised, waits⟩ := rejoinAutoCover_waits hv hc q r _ rfl
  rw [grantAttempt_none arr _ (.inr waits), raised]
  have same := raise_same (joinEntry ⟨d, .cover, .auto, r, q⟩ v) (.noCover d) none
  have table : SameTable v (joinEntry ⟨d, .cover, .auto, r, q⟩ v) := ⟨rfl, rfl, rfl⟩
  exact ⟨same.co, same.amps, (raise_table _ _ table).faults⟩

/-- The entry is served at once where it is alone and a standby is grantable to it. -/
theorem rejoined_served (arr : Arrive) (hq : v.co.queue = []) (hop : v.co.op = none) (hr : v.runs = true)
    (hx : v.chosenStandby d = some x) (hne : d ≠ x) (hm : v.moveStarts (v.amp d).carrying x = true) :
    ∀ t, t = grantAttempt arr (rejoinAutoCover d q r v) →
      t.co = { v.co with op := some ⟨.cover, d, x, .auto, r, q, none, .moving⟩ } ∧
      (t.amp x).state = .busy ∧ (t.amp x).coveredAmp = some d := by
  rintro t rfl
  rw [rejoinAutoCover_served hx]
  have queue : (joinEntry ⟨d, .cover, .auto, r, q⟩ v).co.queue = [] ++ ⟨d, .cover, .auto, r, q⟩ :: [] := by
    simp [joinEntry, hq, insertEntry]
  obtain ⟨co, standby, -⟩ := grantAttempt_cover (arr := arr) (x := x) queue hop hr nofun (.inr rfl) nofun hx rfl hm hne
  rw [co, standby]
  refine ⟨?_, rfl, rfl⟩
  simp [joinEntry, hq, CoEntry.covering]

end Rejoin

end Sys2Proof.Machine
end

section
/-! PROOFS. The failed verify of a return (R82, R98, R100). -/

namespace Sys2Proof.Machine

variable {s t u v : State} {k x : AmpNo} {o : Operation} {ac : Code} {prot : Bool} {m : Measurement}

/-! ### FAIL recorded (R82) -/

/-- The record of an amplifier whose verify has failed (R82). -/
def Amp.verifyFailed (a : Amp) (ac : Code) (prot : Bool) : Amp :=
  { a with condition := .fail, candidate := none, count := 0, lastAc := some ac, lastProt := some prot }

/-- What the record of a failed verify leaves of the state. -/
structure FailRecorded (k : AmpNo) (ac : Code) (prot : Bool) (s t : State) : Prop where
  own : t.amp k = (s.amp k).verifyFailed ac prot
  others : ∀ j, j ≠ k → t.amp j = s.amp j
  lines : t.lines = s.lines
  co : t.co = s.co
  mc : t.mc = s.mc
  move : t.move = s.move
  job : t.chan.job = s.chan.job
  confirm : .amp k ∉ t.chan.confirm
  ports : SameButLatch s.ports t.ports
  table : SameTable (raise (.ampFail k) (some (.amp ac prot)) s) t
  fewer : GrantsFewer s t

theorem recordVerifyFail_parts (k : AmpNo) (ac : Code) (prot : Bool) (s : State) :
    FailRecorded k ac prot s (recordVerifyFail k ac prot s) := by
  have recorded : recordVerifyFail k ac prot s =
      raise (.ampFail k) (some (.amp ac prot)) (withdrawConfirm (.amp k) (s.setAmp k ((s.amp k).verifyFailed ac prot))) := rfl
  have fewer : GrantsFewer s (s.setAmp k ((s.amp k).verifyFailed ac prot)) := .of_amp s k rfl rfl id
  have withdrawn : .amp k ∉ (withdrawConfirm (.amp k) (s.setAmp k ((s.amp k).verifyFailed ac prot))).chan.confirm := by
    simp [withdrawConfirm]
  have own := amp_setAmp_same s k ((s.amp k).verifyFailed ac prot)
  have others := fun j hj => amp_setAmp_ne s k j ((s.amp k).verifyFailed ac prot) hj
  rw [recorded]
  generalize hw : withdrawConfirm (.amp k) (s.setAmp k ((s.amp k).verifyFailed ac prot)) = w at withdrawn ⊢
  have same := raise_same w (.ampFail k) (some (.amp ac prot))
  have latch := raise_latch (.ampFail k) (some (.amp ac prot)) w
  have amps : w.amps = (s.setAmp k ((s.amp k).verifyFailed ac prot)).amps := hw ▸ rfl
  have mc : w.mc = s.mc := hw ▸ rfl
  have ports : w.ports = s.ports := hw ▸ rfl
  refine ⟨?_, fun j hj => ?_, same.lines.trans (hw ▸ rfl), same.co.trans (hw ▸ rfl), same.mc.trans mc,
    same.move.trans (hw ▸ rfl), (congrArg Channel.job same.chan).trans (hw ▸ rfl), by rw [same.chan]; exact withdrawn,
    ports ▸ latch, raise_table _ _ (hw ▸ ⟨rfl, rfl, rfl⟩), ?_⟩
  · rw [amp_congr same.amps, amp_congr amps, own]
  · rw [amp_congr same.amps, amp_congr amps, others j hj]
  · exact fewer.trans ((GrantsFewer.of_amps amps mc).trans (.of_table same))

/-! ### The delivery (R36, R98, R100) -/

/-- A VERIFY result that is not stale is taken by the changeover unit (R36). -/
theorem resultTaken_verify (ac : Code) (masked prot : Bool) (ht : m.target = .amp k) (hc : m.cls = .verify)
    (he : m.stampCopy = some (s.amp k).stamp) :
    resultTaken m (.amp ac masked prot) s = takeVerify id k ac masked prot s := by
  have fresh : s.isStale m = false := by simp [State.isStale, ht, he]
  simp [resultTaken, fresh, deliver, hc, ht]

/-- A reading that does not pass, or a duty amplifier in condition FAIL, fails the verify of a return (R99, R100). -/
theorem takeVerify_returnFails (arr : Arrive) (ho : s.co.op = some o) (hp : o.phase = .verifying)
    (hk : o.kind = .returnLines) (hd : o.duty = k)
    (hf : ac.val < (s.amp k).cfg.amin ∨ prot = true ∨ (s.amp k).condition = .fail) :
    takeVerify arr k ac false prot s = returnFail arr o ac prot s := by
  have awaits : s.awaitsVerify k = true := by simp [State.awaitsVerify, ho, hp, Operation.verified, hk, hd]
  have fails : ¬(normalReading (s.amp k).cfg.amin ac prot = true ∧ (s.amp o.duty).condition = .normal) := by
    rintro ⟨normal, condition⟩
    rw [hd] at condition
    simp only [normalReading, Bool.and_eq_true, decide_eq_true_eq, Bool.not_eq_true'] at normal
    obtain h | h | h := hf
    · omega
    · rw [normal.2] at h; cases h
    · rw [condition] at h; cases h
  unfold takeVerify
  rw [ho]
  dsimp only
  rw [awaits, hk]
  simp only [Bool.not_true, Bool.false_eq_true, ↓reduceIte]
  exact if_neg fails

/-- An amplifier whose verify of a return has failed is in no place of the confirm queue (R82). -/
theorem returnFail_unplaced (o : Operation) (ac : Code) (prot : Bool) (s : State) :
    .amp o.duty ∉ (returnFail id o ac prot s).chan.confirm := by
  have stands := confirmStands_grants
  have still : ∀ u : State, ConfirmStands u (id u) := fun _ => rfl
  have joins : ∀ u : State, ConfirmStands u (rejoinFailedReturn o { u with co := { u.co with op := none } }) := fun u =>
    congrArg Channel.confirm (rejoinAutoCover_frame _ _ none _).1.chan
  have after : ConfirmStands (recordVerifyFail o.duty ac prot s) (returnFail id o ac prot s) := by
    unfold returnFail; dsimp only; split
    · refine stands.trans ?_ (stands.moveBack _ still _ _ _)
      split
      · exact stands.setAmpState _ _ (by decide)
      · exact stands.refl _
    · refine stands.trans ?_ (stands.endOperation _ still _ fun u _ => joins u)
      exact stands.trans (stands.setAmpState _ _ (by decide)) (stands.dropCover _ _)
  rw [after]
  exact (recordVerifyFail_parts o.duty ac prot s).confirm

/-! ### The lines go back (R100) -/

/-- The state of the duty amplifier whose verify has failed while its standby is BUSY with it: it is COVERED again (R100). -/
def Amp.coveredAgain (a : Amp) : Amp :=
  if a.state = .relieved then { a with state := .covered, stamp := a.stamp + 1 } else a

theorem Amp.coveredAgain_eq (a : Amp) : a.coveredAgain = { a with
    state := if a.state = .relieved then .covered else a.state
    stamp := if a.state = .relieved then a.stamp + 1 else a.stamp } := by
  unfold Amp.coveredAgain
  by_cases h : a.state = .relieved <;> simp [h]

/-- The state of a failed return before its lines go back (R100). -/
def coveredAgain (k : AmpNo) (s : State) : State :=
  if (s.amp k).state = .relieved then setAmpState k .covered s else s

theorem coveredAgain_parts (k : AmpNo) (s : State) : (∀ j, (coveredAgain k s).amp j =
      if j = k then (s.amp k).coveredAgain else s.amp j) ∧ (coveredAgain k s).lines = s.lines ∧
    (coveredAgain k s).co = s.co ∧ (coveredAgain k s).mc = s.mc ∧ (coveredAgain k s).chan = s.chan ∧
    (coveredAgain k s).faults = s.faults := by
  unfold coveredAgain Amp.coveredAgain
  by_cases h : (s.amp k).state = .relieved
  · refine ⟨fun j => ?_, ?_⟩
    · rw [if_pos h, if_pos h, amp_setAmpState]
      by_cases hj : j = k <;> simp [hj, h]
    · rw [if_pos h]
      unfold setAmpState
      simp only [h]
      exact ⟨rfl, rfl, rfl, rfl, rfl⟩
  · refine ⟨fun j => ?_, ?_⟩
    · rw [if_neg h, if_neg h]
      split
      · next e => rw [e]
      · rfl
    · rw [if_neg h]
      exact ⟨rfl, rfl, rfl, rfl, rfl⟩

theorem returnFail_busy (arr : Arrive) (o : Operation) (ac : Code) (prot : Bool) (s : State)
    (hb : (recordVerifyFail o.duty ac prot s).busyFor o.standby o.duty = true) : returnFail arr o ac prot s =
      moveBack arr o.duty o.duty o.standby (coveredAgain o.duty (recordVerifyFail o.duty ac prot s)) := by
  unfold returnFail
  exact if_pos hb

theorem returnFail_lost (arr : Arrive) (o : Operation) (ac : Code) (prot : Bool) (s : State)
    (hb : (recordVerifyFail o.duty ac prot s).busyFor o.standby o.duty = false) : returnFail arr o ac prot s =
      endOperation arr (some .returnFailed) (rejoinFailedReturn o)
        (dropCover o.duty (setAmpState o.duty .failed (recordVerifyFail o.duty ac prot s))) := by
  unfold returnFail
  exact if_neg (by simp [hb])

/-- A move back that waits for a relay operation (R100). -/
theorem moveBack_waits (arr : Arrive) (d x y : AmpNo) (s : State) (h : s.moveStarts x y = true) :
    moveBack arr d x y s = setPhase .movingBack (setCarrying d y (moveLines x y s)) :=
  reportMove_idle _ arr (moveLines_waits h)

/-- The lines of a failed return go back to the standby that is still BUSY with it (R100). -/
theorem returnFail_back (ho : s.co.op = some o) (hd : o.duty = k) (ha : s.mc.mode = .active) (hne : o.standby ≠ k)
    (hb : (s.amp o.standby).state = .busy) (hc : (s.amp o.standby).coveredAmp = some k)
    (hm : s.moveStarts k o.standby = true) :
    ∀ t, t = afterResult m (returnFail id o ac prot s) →
      t.amp k = { ((s.amp k).verifyFailed ac prot).coveredAgain with carrying := o.standby } ∧
      (∀ j, j ≠ k → t.amp j = s.amp j) ∧ t.co = { s.co with op := some { o with phase := .movingBack } } ∧
      t.faults = (raise (.ampFail k) (some (.amp ac prot)) s).faults ∧
      ∀ n, (s.line n).current = k → (t.line n).current = o.standby := by
  subst hd
  rintro t rfl
  have recorded := recordVerifyFail_parts o.duty ac prot s
  have busy : (recordVerifyFail o.duty ac prot s).busyFor o.standby o.duty = true := by
    rw [State.busyFor, recorded.others _ hne, hb, hc]
    simp
  rw [returnFail_busy id o ac prot s busy]
  generalize recordVerifyFail o.duty ac prot s = u at recorded
  obtain ⟨amps, lines, co, mc, chan, faults⟩ := coveredAgain_parts o.duty u
  generalize coveredAgain o.duty u = v at amps lines co mc chan faults
  have starts : v.moveStarts o.duty o.standby = true := (moveStarts_congr (lines.trans recorded.lines) _ _).trans hm
  have frame := moveLines_frame v o.duty o.standby
  have line := line_moveLines v o.duty o.standby
  have waits := moveLines_waits starts
  rw [moveBack_waits id o.duty o.duty o.standby v starts]
  generalize moveLines o.duty o.standby v = w at frame line waits
  have active : (setPhase .movingBack (setCarrying o.duty o.standby w)).mc.mode = .active :=
    (congrArg ModeControl.mode (frame.work.mc.trans (mc.trans recorded.mc))).trans ha
  have stands : Stands _ (afterResult m (setPhase .movingBack (setCarrying o.duty o.standby w))) :=
    afterResult_activeStands active waits
  have own : ∀ j, (setPhase .movingBack (setCarrying o.duty o.standby w)).amp j =
      if j = o.duty then { w.amp o.duty with carrying := o.standby } else w.amp j := fun j => amp_setAmp w o.duty j _
  refine ⟨?_, fun j hj => ?_, ?_, ?_, fun n hn => ?_⟩
  · rw [amp_congr stands.amps, own, if_pos rfl, amp_congr frame.work.amps, amps, if_pos rfl, recorded.own]
  · rw [amp_congr stands.amps, own, if_neg hj, amp_congr frame.work.amps, amps, if_neg hj, recorded.others j hj]
  · rw [stands.co]
    have op : w.co = s.co := frame.work.co.trans (co.trans recorded.co)
    show ({ w.co with op := w.co.op.map fun p : Operation => { p with phase := .movingBack } } : Changeover) = _
    rw [op, ho]
    rfl
  · rw [stands.faults]
    exact frame.faults.trans (faults.trans recorded.table.faults)
  · have same : v.line n = s.line n := line_congr (lines.trans recorded.lines) n
    rw [line_congr stands.lines]
    show (w.line n).current = o.standby
    rw [line, same, if_pos hn, State.movedLine, same]
    dsimp only
    split <;> rfl

/-! ### The standby is lost (R98, R100) -/

/-- The duty amplifier FAILED and without its cover (R100). -/
def returnLost (k : AmpNo) (s : State) : State := dropCover k (setAmpState k .failed s)

theorem returnLost_frame (k : AmpNo) (s : State) : (returnLost k s).lines = s.lines ∧ (returnLost k s).co = s.co ∧
    (returnLost k s).mc = s.mc ∧ (returnLost k s).chan = s.chan ∧ (returnLost k s).faults = s.faults ∧
    (returnLost k s).ports = s.ports ∧ (returnLost k s).move = s.move := by
  unfold returnLost setAmpState
  dsimp only
  split
  · exact ⟨rfl, rfl, rfl, rfl, rfl, rfl, rfl⟩
  · exact ⟨rfl, rfl, rfl, rfl, rfl, rfl, rfl⟩

theorem returnLost_own (k : AmpNo) (s : State) : ∃ w, (returnLost k s).amp k =
    { s.amp k with state := .failed, stamp := w, coveringStandby := none, coverSeq := none } := by
  unfold returnLost dropCover
  rw [amp_setAmp_same, amp_setAmpState]
  split
  · exact ⟨_, rfl⟩
  · next h =>
    have failed : (s.amp k).state = .failed := by simpa using h
    exact ⟨(s.amp k).stamp, by rw [← failed]⟩

theorem returnLost_others {j : AmpNo} (h : j ≠ k) (s : State) : (returnLost k s).amp j = s.amp j := by
  unfold returnLost dropCover
  rw [amp_setAmp_ne _ _ _ _ h, amp_setAmpState, if_neg fun e => h e.1]

/-- What a return that has lost its standby leaves before the AUTO COVER joins, with its completion handed on (R100). -/
structure ReturnOver (o : Operation) (ac : Code) (prot : Bool) (s v : State) : Prop where
  own : ∃ w, v.amp o.duty = { (s.amp o.duty).verifyFailed ac prot with
    state := .failed, stamp := w, coveringStandby := none, coverSeq := none }
  others : ∀ j, j ≠ o.duty → v.amp j = s.amp j
  lines : v.lines = s.lines
  co : v.co = { s.co with op := none }
  mc : v.mc = s.mc
  move : v.move = s.move
  job : v.chan.job = s.chan.job
  ports : SameButLatch (handedOn o.requester .returnFailed s.ports) v.ports
  table : SameTable (raise (.ampFail o.duty) (some (.amp ac prot)) s) v
  fewer : GrantsFewer s v

/-- The state of a return that has lost its standby before the AUTO COVER joins (R100). -/
def returnOver (o : Operation) (ac : Code) (prot : Bool) (s : State) : State :=
  (returnLost o.duty (recordVerifyFail o.duty ac prot s)).operationOver (some .returnFailed)

theorem returnOver_parts (ho : s.co.op = some o) (ac : Code) (prot : Bool) :
    ReturnOver o ac prot s (returnOver o ac prot s) := by
  unfold returnOver
  have recorded := recordVerifyFail_parts o.duty ac prot s
  generalize recordVerifyFail o.duty ac prot s = u at recorded
  obtain ⟨lines, co, mc, chan, faults, ports, move⟩ := returnLost_frame o.duty u
  obtain ⟨w, own⟩ := returnLost_own o.duty u
  have others := fun j (hj : j ≠ o.duty) => returnLost_others hj u
  have fewer : GrantsFewer u (returnLost o.duty u) :=
    (GrantsFewer.setAmpState u o.duty (by decide)).trans (.of_amp _ o.duty rfl rfl id)
  generalize returnLost o.duty u = v at *
  have op : v.co.op = some o := by rw [co, recorded.co, ho]
  have listeners : v.listeners = u.listeners := listeners_of_port fun p => by rw [port_congr ports]
  refine ⟨⟨w, ?_⟩, fun j hj => (others j hj).trans (recorded.others j hj), lines.trans recorded.lines, ?_,
    mc.trans recorded.mc, move.trans recorded.move, (congrArg Channel.job chan).trans recorded.job, ?_,
    (recorded.table.trans ⟨faults, listeners, congrArg Channel.roundNumber chan⟩).trans (operationOver_table _ v),
    (recorded.fewer.trans fewer).trans (operationOver_fewer _ v)⟩
  · exact own.trans (by rw [recorded.own])
  · show { v.co with op := none } = _
    rw [co, recorded.co]
  · show SameButLatch _ (handedOn (v.co.op.bind (·.requester)) .returnFailed v.ports)
    rw [op, ports]
    exact recorded.ports.handedOn _ _

/-- The chosen standby of the duty amplifier is chosen for it still, unless it is that amplifier itself. -/
theorem ReturnOver.chosen (h : ReturnOver o ac prot s v) (hx : s.chosenStandby o.duty = some x) (hne : o.duty ≠ x) :
    v.chosenStandby o.duty = some x := by
  refine h.fewer.some hx ?_
  obtain ⟨role, free, carries⟩ := (grantable_iff s o.duty x).mp ((chosenStandby_iff s o.duty x).mp hx).1
  obtain ⟨w, own⟩ := h.own
  have alike : ∀ j, (v.amp j).cfg = (s.amp j).cfg ∧ (v.amp j).carrying = (s.amp j).carrying := fun j => by
    by_cases hj : j = o.duty
    · subst hj; rw [own]; exact ⟨rfl, rfl⟩
    · rw [h.others j hj]; exact ⟨rfl, rfl⟩
  rw [grantable_iff]
  simp only [alike, h.others x hne.symm]
  exact ⟨role, free, carries⟩

theorem returnFail_over (hs : s.mc.mode = .active) (h : (recordVerifyFail o.duty ac prot s).busyFor o.standby o.duty = false)
    (hv : ReturnOver o ac prot s (returnOver o ac prot s)) :
    returnFail id o ac prot s = grantAttempt id (rejoinFailedReturn o (returnOver o ac prot s)) := by
  obtain ⟨joined, -⟩ := rejoinAutoCover_frame o.duty (o.resumeSeq.getD o.seq) none (returnOver o ac prot s)
  have mode : (rejoinFailedReturn o (returnOver o ac prot s)).mc.mode ≠ .stopping := by
    rw [rejoinFailedReturn, joined.mc]
    show (returnOver o ac prot s).mc.mode ≠ .stopping
    rw [hv.mc, hs]
    decide
  rw [returnFail_lost id o ac prot s h]
  exact endOperation_eq id _ _ _ mode

/-- A return that has lost its standby ends RETURN_FAILED, and an AUTO COVER joins (R98, R100). -/
theorem returnFail_fails (ho : s.co.op = some o) (ha : s.mc.mode = .active) (hs : s.move ≠ some [])
    (hb : (s.amp o.standby).state ≠ .busy ∨ (s.amp o.standby).coveredAmp ≠ some o.duty) :
    ∀ g, g = grantAttempt id (rejoinFailedReturn o (returnOver o ac prot s)) →
      Attempted (returnOver o ac prot s) g ∧ Stands g (afterResult m (returnFail id o ac prot s)) ∧
        JobFree g (afterResult m (returnFail id o ac prot s)) := by
  have parts := returnOver_parts ho ac prot
  have recorded := recordVerifyFail_parts o.duty ac prot s
  have lost : (recordVerifyFail o.duty ac prot s).busyFor o.standby o.duty = false := by
    have same : ((recordVerifyFail o.duty ac prot s).amp o.standby).state = (s.amp o.standby).state ∧
        ((recordVerifyFail o.duty ac prot s).amp o.standby).coveredAmp = (s.amp o.standby).coveredAmp := by
      by_cases hj : o.standby = o.duty
      · rw [hj, recorded.own]; exact ⟨rfl, rfl⟩
      · rw [recorded.others _ hj]; exact ⟨rfl, rfl⟩
    rw [State.busyFor, same.1, same.2]
    obtain h | h := hb <;> simp [h]
  rw [returnFail_over ha lost parts]
  rintro g rfl
  generalize returnOver o ac prot s = v at parts
  obtain ⟨joined, -⟩ := rejoinAutoCover_frame o.duty (o.resumeSeq.getD o.seq) none v
  have attempted : Attempted v (grantAttempt id (rejoinFailedReturn o v)) :=
    rejoinAutoCover_attempted o.duty (o.resumeSeq.getD o.seq) none v
  have mode : (grantAttempt id (rejoinFailedReturn o v)).mc.mode = .active := by
    rw [grantAttempt_id_mc, rejoinFailedReturn, joined.mc]
    exact (congrArg ModeControl.mode parts.mc).trans ha
  exact ⟨attempted, afterResult_activeStands mode (attempted.move (by rw [parts.move]; exact hs)), afterResult_jobFree m⟩

/-! ### The statement's parts (R98, R100) -/

/-- A completion that the end of a return has handed on stands in its port's list, and is the last where no learn job runs. -/
theorem returned_completions {r : Requester} {c : CompletionOutcome} (hr : r.session = (s.port r.port).session)
    (hi : 0 < (s.port r.port).inFlight) (hv : SameButLatch (handedOn (some r) c s.ports) v.ports)
    (hj : v.chan.job = s.chan.job) (hh : JobHandsOn v t) :
    (s.port r.port).completions ++ [⟨r.tag, r.request, c⟩] <+: (t.port r.port).completions ∧
      (s.chan.job = none → (t.port r.port).completions = (s.port r.port).completions ++ [⟨r.tag, r.request, c⟩]) := by
  have handed : (v.port r.port).completions = (s.port r.port).completions ++ [⟨r.tag, r.request, c⟩] := by
    have port := hv r.port
    rw [get_handedOn_same c s.ports (by simpa only [ports_get] using hr) (by simpa only [ports_get] using hi)] at port
    simp only [ports_get] at port
    rw [port]
  refine ⟨handed ▸ hh.grows r.port, fun none => ?_⟩
  have port := hh.quiet (hj.trans none) r.port
  simp only [ports_get] at port
  rw [port]
  exact handed

theorem Stands.hands (h : Stands s t) (hj : JobFree s t) : JobHandsOn s t := by
  refine ⟨fun p => ?_, hj, fun _ => h.ports⟩
  have port := h.ports p
  rw [ports_get] at port
  rw [port]
  exact List.prefix_refl _

/-- A failed return whose standby is lost, as the statement says it. -/
theorem returnFail_lost_spec (ho : s.co.op = some o) (ha : s.mc.mode = .active) (hs : s.move ≠ some [])
    (hb : (s.amp o.standby).state ≠ .busy ∨ (s.amp o.standby).coveredAmp ≠ some o.duty) :
    ∀ f, f = raise (.ampFail o.duty) (some (.amp ac prot)) s → ∀ t, t = afterResult m (returnFail id o ac prot s) →
      (t.amp o.duty).state = .failed ∧ (t.amp o.duty).coveringStandby = none ∧ (t.amp o.duty).coverSeq = none ∧
      (∀ r, o.requester = some r → r.session = (s.port r.port).session → 0 < (s.port r.port).inFlight →
        (s.port r.port).completions ++ [⟨r.tag, r.request, .returnFailed⟩] <+: (t.port r.port).completions ∧
        (s.chan.job = none →
          (t.port r.port).completions = (s.port r.port).completions ++ [⟨r.tag, r.request, .returnFailed⟩])) ∧
      ∀ e, e = (⟨o.duty, .cover, .auto, none, o.resumeSeq.getD o.seq⟩ : CoEntry) →
        ((∀ z ∈ s.co.queue, s.passesOver z = true) → s.chosenStandby o.duty = none →
          t.co = { s.co with op := none, queue := insertEntry e s.co.queue } ∧
          t.faults = (raise (.noCover o.duty) none f).faults ∧ (t.amp o.duty).carrying = (s.amp o.duty).carrying) ∧
        ∀ x, s.chosenStandby o.duty = some x → o.duty ≠ x → s.co.queue = [] →
          s.moveStarts (s.amp o.duty).carrying x = true →
          t.co = { s.co with op := some ⟨.cover, o.duty, x, .auto, none, e.seq, none, .moving⟩ } ∧
          (t.amp x).state = .busy ∧ (t.amp x).coveredAmp = some o.duty := by
  rintro f rfl t rfl
  have parts := returnOver_parts ho ac prot
  obtain ⟨attempted, stands, jobFree⟩ := returnFail_fails (m := m) (ac := ac) (prot := prot) ho ha hs hb _ rfl
  generalize returnOver o ac prot s = v at parts attempted stands jobFree
  obtain ⟨w, own⟩ := parts.own
  have carrying : (v.amp o.duty).carrying = (s.amp o.duty).carrying := by rw [own]; rfl
  have free : (v.amp o.duty).state ≠ .free := by rw [own]; nofun
  obtain ⟨covering, seq⟩ := attempted.cover o.duty
  refine ⟨?_, ?_, ?_, fun r hr session counted => ?_, ?_⟩
  · rw [amp_congr stands.amps, attempted.state _ free, own]
  · rw [amp_congr stands.amps, covering, own]
  · rw [amp_congr stands.amps, seq, own]
  · have ports := parts.ports
    rw [hr] at ports
    exact returned_completions session counted ports parts.job (attempted.hands.trans (stands.hands jobFree))
  · rintro e rfl
    refine ⟨fun waits unchosen => ?_, fun x hx hne queue moves => ?_⟩
    · obtain ⟨co, amps, faults⟩ := rejoined_waits (o.resumeSeq.getD o.seq) none id
        (parts.fewer.waits (by rw [parts.co]) waits) (parts.fewer.none unchosen) _ rfl
      refine ⟨stands.co.trans (co.trans (by rw [parts.co])), ?_, ?_⟩
      · exact stands.faults.trans (faults.trans (raise_table _ _ parts.table).faults)
      · exact (congrArg Amp.carrying ((amp_congr stands.amps o.duty).trans (amp_congr amps o.duty))).trans carrying
    · obtain ⟨co, busy, covered⟩ := rejoined_served (o.resumeSeq.getD o.seq) none id (by rw [parts.co]; exact queue)
        (by rw [parts.co]) (by rw [State.runs, parts.mc, ha]; rfl) (parts.chosen hx hne) hne
        (by rw [moveStarts_congr parts.lines, carrying]; exact moves) _ rfl
      rw [amp_congr stands.amps]
      exact ⟨stands.co.trans (co.trans (by rw [parts.co])), busy, covered⟩

end Sys2Proof.Machine
end

section
/-! PROOFS. The move back of a failed cover or return is done (R97, R101); O33. -/

namespace Sys2Proof.Machine

variable {s t u v : State} {n : LineNo} {x : AmpNo} {o : Operation}

/-! ### The move back is done (R7, R97, R101) -/

/-- The state when the last relay operation of a move is over. -/
def State.moveOver (s : State) (n : LineNo) : State := { s.relayOver n with move := none }

theorem relayDone_over (hf : s.chan.inFlight.isSome) (hm : s.move = some [n]) :
    relayDone n s = moveDone arrival (s.moveOver n) := by
  rw [relayDone_inFlight s n hf]
  simp [reportMove, hm, State.moveOver]

/-- What the end of an operation leaves behind the last relay operation of its move back. -/
structure BackOver (c : Option CompletionOutcome) (s v : State) : Prop where
  amps : v.amps = s.amps
  co : v.co = { s.co with op := none }
  mc : v.mc = s.mc
  chan : v.chan = s.chan
  ports : v.ports = match c with
    | some c => handedOn (s.co.op.bind (·.requester)) c s.ports
    | none => s.ports
  table : SameTable s v
  starts : ∀ x y, v.moveStarts x y = s.moveStarts x y

theorem backOver_parts (c : Option CompletionOutcome) (s : State) (n : LineNo) :
    BackOver c s ((s.moveOver n).operationOver c) := by
  have line : ∀ m, (((s.moveOver n).operationOver c).line m) =
      if m = n then { s.line n with relayLeft := none } else s.line m := fun m => line_setLine s n m _
  have starts : ∀ x y, ((s.moveOver n).operationOver c).moveStarts x y = s.moveStarts x y := fun x y => by
    unfold State.moveStarts
    congr 1
    funext m
    rw [line]
    split
    · next h => rw [h]
    · rfl
  have table : SameTable s (s.moveOver n) := ⟨rfl, rfl, rfl⟩
  exact ⟨rfl, rfl, rfl, rfl, rfl, table.trans (operationOver_table c (s.moveOver n)), starts⟩

namespace BackOver
variable {c : Option CompletionOutcome} (h : BackOver c s v)
include h

theorem fewer : GrantsFewer s v := .of_amps h.amps h.mc

theorem amp (k : AmpNo) : v.amp k = s.amp k := amp_congr h.amps k

theorem waits (hs : ∀ e ∈ s.co.queue, s.passesOver e = true) : v.waits := h.fewer.waits (by rw [h.co]) hs

theorem runs (ha : s.mc.mode = .active) : v.runs = true := by rw [State.runs, h.mc, ha]; rfl

theorem chosen {d : AmpNo} (hx : s.chosenStandby d = some x) : v.chosenStandby d = some x := by
  have amp := h.amp
  refine h.fewer.some hx ?_
  have grantable := ((chosenStandby_iff s d x).mp hx).1
  simpa only [State.grantable, State.carries, amp] using grantable

/-- The AUTO COVER that joins behind the operation waits (R90). -/
theorem rejoined_waits {d : AmpNo} (q : Word) (r : Option Requester)
    (hs : ∀ e ∈ s.co.queue, s.passesOver e = true) (hc : s.chosenStandby d = none) :
    ∀ t, t = grantAttempt id (rejoinAutoCover d q r v) → t.amps = s.amps ∧
      t.faults = (raise (.noCover d) none s).faults ∧
      t.co = { s.co with op := none, queue := insertEntry ⟨d, .cover, .auto, r, q⟩ s.co.queue } := by
  intro t ht
  obtain ⟨co, amps, faults⟩ := Machine.rejoined_waits q r id (h.waits hs) (h.fewer.none hc) t ht
  exact ⟨amps.trans h.amps, faults.trans (raise_table _ _ h.table).faults, co.trans (by rw [h.co])⟩

/-- The AUTO COVER that joins behind the operation is served at once (R91, R92). -/
theorem rejoined_served {d : AmpNo} (q : Word) (r : Option Requester) (ha : s.mc.mode = .active) (hq : s.co.queue = [])
    (hx : s.chosenStandby d = some x) (hne : d ≠ x) (hm : s.moveStarts (s.amp d).carrying x = true) :
    ∀ t, t = grantAttempt id (rejoinAutoCover d q r v) →
      t.co = { s.co with op := some ⟨.cover, d, x, .auto, r, q, none, .moving⟩ } ∧
      (t.amp x).state = .busy ∧ (t.amp x).coveredAmp = some d := by
  intro t ht
  obtain ⟨co, standby⟩ := Machine.rejoined_served q r id (by rw [h.co]; exact hq) (by rw [h.co]) (h.runs ha)
    (h.chosen hx) hne (by rw [h.starts, h.amp]; exact hm) t ht
  exact ⟨co.trans (by rw [h.co]), standby⟩

end BackOver

/-- The end of an operation while a measurement is in flight, in ACTIVE. -/
theorem endOperation_inFlight {c : Option CompletionOutcome} {rejoin : State → State} {w : State}
    (ha : (rejoin (w.operationOver c)).mc.mode = .active) (hf : (rejoin (w.operationOver c)).chan.inFlight.isSome) :
    endOperation arrival c rejoin w = grantAttempt id (rejoin (w.operationOver c)) := by
  rw [endOperation_eq arrival c rejoin w (by rw [ha]; decide), grantAttempt_inFlight hf]

/-! ### A failed cover (R97) -/

/-- The duty amplifier that has recovered HEALTHY, and NO_COVER cleared (R97). -/
def recovered (d : AmpNo) (v : State) : State := clear (.noCover d) none (setAmpState d .healthy v)

theorem setAmpState_frame (k : AmpNo) (st : AmpState) (s : State) : (setAmpState k st s).chan = s.chan ∧
    (setAmpState k st s).mc = s.mc ∧ (setAmpState k st s).co = s.co ∧ (setAmpState k st s).ports = s.ports ∧
    SameTable s (setAmpState k st s) := by
  unfold setAmpState; dsimp only
  split
  · exact ⟨rfl, rfl, rfl, rfl, .refl s⟩
  · exact ⟨rfl, rfl, rfl, rfl, ⟨rfl, rfl, rfl⟩⟩

theorem recovered_frame (d : AmpNo) (v : State) : (recovered d v).chan = v.chan ∧ (recovered d v).mc = v.mc ∧
    (recovered d v).co = v.co ∧ SameButLatch v.ports (recovered d v).ports ∧
    (recovered d v).amps = (setAmpState d .healthy v).amps ∧
    (recovered d v).faults = (clear (.noCover d) none v).faults ∧ GrantsFewer v (recovered d v) := by
  obtain ⟨chan, mc, co, ports, table⟩ := setAmpState_frame d .healthy v
  have fewer := GrantsFewer.setAmpState v d (st := .healthy) (by decide)
  have same := clear_same (setAmpState d .healthy v) (.noCover d) none
  have latch := clear_latch (.noCover d) none (setAmpState d .healthy v)
  rw [ports] at latch
  exact ⟨same.chan.trans chan, same.mc.trans mc, same.co.trans co, latch, same.amps, (clear_table _ _ table).faults,
    fewer.trans (.of_table same)⟩

section Cover
variable (o) (v)

theorem rejoinFailedCover_failed (hs : (v.amp o.duty).state = .failed) (hc : (v.amp o.duty).condition = .fail) :
    rejoinFailedCover o v = rejoinAutoCover o.duty o.seq o.requester v := by
  unfold rejoinFailedCover
  dsimp only
  rw [hs, hc]

theorem rejoinFailedCover_recovered (hs : (v.amp o.duty).state = .failed) (hc : (v.amp o.duty).condition = .normal) :
    rejoinFailedCover o v = recovered o.duty
      (if o.requester = none then v else joinEntry ⟨o.duty, .cover, .manual, o.requester, o.seq⟩ v) := by
  unfold rejoinFailedCover recovered
  dsimp only
  rw [hs, hc]
  cases o.requester <;> rfl

theorem rejoinFailedCover_well (hs : (v.amp o.duty).state = .healthy ∨ (v.amp o.duty).state = .suspect) :
    rejoinFailedCover o v = joinEntry ⟨o.duty, .cover, .manual, o.requester, o.seq⟩ v := by
  unfold rejoinFailedCover
  dsimp only
  obtain hs | hs := hs <;> rw [hs]

/-- What a failed cover re-queues reaches neither the channel nor the mode, and the ports by their latches alone. -/
theorem rejoinFailedCover_frame : (rejoinFailedCover o v).chan = v.chan ∧ (rejoinFailedCover o v).mc = v.mc ∧
    SameButLatch v.ports (rejoinFailedCover o v).ports := by
  have cleared : ∀ w, (recovered o.duty w).chan = w.chan ∧ (recovered o.duty w).mc = w.mc ∧
      SameButLatch w.ports (recovered o.duty w).ports := fun w =>
    have ⟨chan, mc, _, ports, _⟩ := recovered_frame o.duty w
    ⟨chan, mc, ports⟩
  unfold rejoinFailedCover
  dsimp only
  split
  · obtain ⟨same, ports⟩ := rejoinAutoCover_frame o.duty o.seq o.requester v
    exact ⟨same.chan, same.mc, ports⟩
  · exact cleared (joinEntry _ v)
  · exact cleared v
  · exact ⟨rfl, rfl, .refl _⟩
  · exact ⟨rfl, rfl, .refl _⟩
  · exact ⟨rfl, rfl, .refl _⟩

end Cover

/-- The last relay operation of the move back of a failed cover: what joins, and a grant attempt (R97). -/
theorem relayDone_failedCover (hf : s.chan.inFlight.isSome) (hm : s.move = some [n]) (ha : s.mc.mode = .active)
    (ho : s.co.op = some o) (hp : o.phase = .movingBack) (hk : o.kind = .cover) :
    ∃ v, BackOver none s v ∧ relayDone n s = grantAttempt id (rejoinFailedCover o v) := by
  have parts := backOver_parts none s n
  obtain ⟨chan, mc, -⟩ := rejoinFailedCover_frame ((s.moveOver n).operationOver none) o
  have done : moveDone arrival (s.moveOver n) = endOperation arrival none (rejoinFailedCover o) (s.moveOver n) := by
    unfold moveDone
    rw [show (s.moveOver n).co.op = some o from ho]
    simp only [hp, hk]
  refine ⟨_, parts, ?_⟩
  rw [relayDone_over hf hm, done]
  refine endOperation_inFlight ?_ ?_
  · rw [mc, parts.mc]; exact ha
  · rw [chan, parts.chan]; exact hf

/-- A failed cover that is queued again, as the statement says it (R97). -/
theorem failedCover_spec (hf : s.chan.inFlight.isSome) (hm : s.move = some [n]) (ha : s.mc.mode = .active)
    (ho : s.co.op = some o) (hp : o.phase = .movingBack) (hk : o.kind = .cover) :
    ∀ d, d = s.amp o.duty → ∀ e, e = (⟨o.duty, .cover, .auto, o.requester, o.seq⟩ : CoEntry) → ∀ t, t = relayDone n s →
    (s.chan.job = none → ∀ p, (t.port p).completions = (s.port p).completions) ∧
    (∀ x, s.chosenStandby o.duty = some x → d.state = .failed → d.condition = .fail → s.co.queue = [] →
      s.moveStarts d.carrying x = true →
      t.co = { s.co with op := some ⟨.cover, o.duty, x, .auto, o.requester, o.seq, none, .moving⟩ } ∧
      (t.amp x).state = .busy ∧ (t.amp x).coveredAmp = some o.duty) ∧
    ((∀ x ∈ s.co.queue, s.passesOver x = true) → s.chosenStandby o.duty = none →
      (d.state = .failed → d.condition = .fail → t.amps = s.amps ∧ t.faults = (raise (.noCover o.duty) none s).faults ∧
        t.co = { s.co with op := none, queue := insertEntry e s.co.queue }) ∧
      (d.state = .failed → d.condition = .normal →
        t.amp o.duty = { d with state := .healthy, stamp := d.stamp + 1 } ∧
        t.faults = (clear (.noCover o.duty) none s).faults ∧ t.co = { s.co with
          op := none
          queue := if o.requester = none then s.co.queue else insertEntry { e with origin := .manual } s.co.queue }) ∧
      (d.state = .healthy ∨ d.state = .suspect → t.amps = s.amps ∧ t.faults = s.faults ∧
        t.co = { s.co with op := none, queue := insertEntry { e with origin := .manual } s.co.queue })) := by
  obtain ⟨v, back, done⟩ := relayDone_failedCover hf hm ha ho hp hk
  rintro d rfl e rfl t rfl
  rw [done, ← back.amp o.duty]
  have join : ∀ e' : CoEntry, e'.kind = .cover → e'.duty = o.duty → (∀ x ∈ s.co.queue, s.passesOver x = true) →
      s.chosenStandby o.duty = none → (joinEntry e' v).waits := fun e' kind duty waits unchosen =>
    (back.waits waits).joined (passesOver_cover v kind (duty ▸ back.fewer.none unchosen))
  refine ⟨fun job p => ?_, fun x hx failed fail queue moves => ?_, fun waits unchosen => ⟨fun failed fail => ?_,
    fun failed normal => ?_, fun well => ?_⟩⟩
  · obtain ⟨chan, -, ports⟩ := rejoinFailedCover_frame v o
    have hands := (JobHandsOn.of_latch (by rw [chan]) ports).trans (grantAttempt_attempted (rejoinFailedCover o v)).hands
    have port := hands.quiet (by rw [back.chan]; exact job) p
    simp only [ports_get] at port
    rw [port, port_congr back.ports]
  · rw [rejoinFailedCover_failed v o failed fail]
    have hne : o.duty ≠ x := fun e => by rw [e, back.amp, chosen_free hx] at failed; cases failed
    exact back.rejoined_served o.seq o.requester ha queue hx hne (by rw [← back.amp]; exact moves) _ rfl
  · rw [rejoinFailedCover_failed v o failed fail]
    exact back.rejoined_waits o.seq o.requester waits unchosen _ rfl
  · rw [rejoinFailedCover_recovered v o failed normal]
    have joined : ∀ w : State,
        w = (if o.requester = none then v else joinEntry ⟨o.duty, .cover, .manual, o.requester, o.seq⟩ v) →
        w.waits ∧ w.amps = v.amps ∧ SameTable v w ∧ w.co = { s.co with
          op := none
          queue := if o.requester = none then s.co.queue else
            insertEntry ⟨o.duty, .cover, .manual, o.requester, o.seq⟩ s.co.queue } := by
      rintro w rfl
      by_cases hr : o.requester = none
      · rw [if_pos hr, if_pos hr]
        exact ⟨back.waits waits, rfl, .refl v, back.co⟩
      · rw [if_neg hr, if_neg hr]
        exact ⟨join _ rfl rfl waits unchosen, rfl, ⟨rfl, rfl, rfl⟩, by rw [joinEntry, back.co]⟩
    obtain ⟨queue, amps, table, co⟩ := joined _ rfl
    generalize (if o.requester = none then v else joinEntry ⟨o.duty, .cover, .manual, o.requester, o.seq⟩ v) = w at *
    obtain ⟨-, -, keepsCo, -, keepsAmps, faults, fewer⟩ := recovered_frame o.duty w
    rw [grantAttempt_none id _ (.inr (fewer.waits (by rw [keepsCo]) queue))]
    refine ⟨?_, ?_, keepsCo.trans co⟩
    · rw [amp_congr keepsAmps, amp_setAmpState, amp_congr amps, failed]
      simp
    · exact faults.trans (clear_table _ _ (back.table.trans table)).faults
  · rw [rejoinFailedCover_well v o well, grantAttempt_none id _ (.inr (join _ rfl rfl waits unchosen))]
    exact ⟨back.amps, back.table.faults, by rw [joinEntry, back.co]⟩

/-! ### A failed return (R101) -/

/-- The AUTO COVER of a failed return whose duty amplifier is FAILED (R101). -/
def rejoinIfFailed (o : Operation) (v : State) : State :=
  if (v.amp o.duty).state = .failed then rejoinFailedReturn o v else v

theorem rejoinIfFailed_frame (o : Operation) (v : State) : (rejoinIfFailed o v).chan = v.chan ∧
    (rejoinIfFailed o v).mc = v.mc ∧ SameButLatch v.ports (rejoinIfFailed o v).ports := by
  unfold rejoinIfFailed; split
  · obtain ⟨same, ports⟩ := rejoinAutoCover_frame o.duty (o.resumeSeq.getD o.seq) none v
    exact ⟨same.chan, same.mc, ports⟩
  · exact ⟨rfl, rfl, .refl _⟩

/-- The last relay operation of the move back of a failed return: RETURN_FAILED, what joins, and a grant attempt (R101). -/
theorem relayDone_failedReturn (hf : s.chan.inFlight.isSome) (hm : s.move = some [n]) (ha : s.mc.mode = .active)
    (ho : s.co.op = some o) (hp : o.phase = .movingBack) (hk : o.kind = .returnLines) :
    ∃ v, BackOver (some .returnFailed) s v ∧ relayDone n s = grantAttempt id (rejoinIfFailed o v) := by
  have parts := backOver_parts (some .returnFailed) s n
  obtain ⟨chan, mc, -⟩ := rejoinIfFailed_frame o ((s.moveOver n).operationOver (some .returnFailed))
  have done : moveDone arrival (s.moveOver n) =
      endOperation arrival (some .returnFailed) (rejoinIfFailed o) (s.moveOver n) := by
    unfold moveDone
    rw [show (s.moveOver n).co.op = some o from ho]
    simp only [hp, hk]
    rfl
  refine ⟨_, parts, ?_⟩
  rw [relayDone_over hf hm, done]
  refine endOperation_inFlight ?_ ?_
  · rw [mc, parts.mc]; exact ha
  · rw [chan, parts.chan]; exact hf

/-- A failed return whose lines are back on the standby, as the statement says it (R101). -/
theorem failedReturn_spec (hf : s.chan.inFlight.isSome) (hm : s.move = some [n]) (ha : s.mc.mode = .active)
    (ho : s.co.op = some o) (hp : o.phase = .movingBack) (hk : o.kind = .returnLines) :
    ∀ d, d = s.amp o.duty → ∀ e, e = (⟨o.duty, .cover, .auto, o.requester, o.seq⟩ : CoEntry) → ∀ t, t = relayDone n s →
    (∀ r, o.requester = some r → r.session = (s.port r.port).session → 0 < (s.port r.port).inFlight →
      (s.port r.port).completions ++ [⟨r.tag, r.request, .returnFailed⟩] <+: (t.port r.port).completions ∧
      (s.chan.job = none →
        (t.port r.port).completions = (s.port r.port).completions ++ [⟨r.tag, r.request, .returnFailed⟩])) ∧
    ((∀ x ∈ s.co.queue, s.passesOver x = true) →
      (d.state = .covered → t.amps = s.amps ∧ t.faults = s.faults ∧ t.co = { s.co with op := none }) ∧
      (d.state = .failed → s.chosenStandby o.duty = none → t.amps = s.amps ∧
        t.faults = (raise (.noCover o.duty) none s).faults ∧ t.co = { s.co with
          op := none
          queue := insertEntry { e with requester := none, seq := o.resumeSeq.getD o.seq } s.co.queue })) := by
  obtain ⟨v, back, done⟩ := relayDone_failedReturn hf hm ha ho hp hk
  rintro d rfl e rfl t rfl
  rw [done]
  obtain ⟨chan, -, latch⟩ := rejoinIfFailed_frame o v
  refine ⟨fun r hr session counted => ?_, fun waits => ⟨fun covered => ?_, fun failed unchosen => ?_⟩⟩
  · have ports : SameButLatch (handedOn (some r) .returnFailed s.ports) v.ports := by
      rw [back.ports, ho, ← hr]
      exact .refl _
    exact returned_completions session counted ports (by rw [back.chan])
      ((JobHandsOn.of_latch (by rw [chan]) latch).trans (grantAttempt_attempted _).hands)
  · have stays : rejoinIfFailed o v = v := if_neg (by rw [back.amp, covered]; decide)
    rw [stays, grantAttempt_none id v (.inr (back.waits waits))]
    exact ⟨back.amps, back.table.faults, back.co⟩
  · have joins : rejoinIfFailed o v = rejoinAutoCover o.duty (o.resumeSeq.getD o.seq) none v :=
      if_pos (by rw [back.amp]; exact failed)
    rw [joins]
    exact back.rejoined_waits _ none waits unchosen _ rfl

end Sys2Proof.Machine

open Sys2Proof.Machine in
/-- Settles O33: the grant attempt by its branches; the failed verify of a return, behind which the search in ACTIVE leaves the
changeover unit alone; and the end of the move back, with what joins and the grant attempt behind it. -/
theorem grantsServeTheQueueAndFailedChangeoversJoinItAgain :
    Obligations.GrantsServeTheQueueAndFailedChangeoversJoinItAgain := by
  refine ⟨⟨fun d x s => chosenStandby_spec s d x, fun s => ⟨grantAttempt_idle arrival,
    fun h => grantAttempt_none arrival s (.inr h), fun pre e rest hq hop hr hp ho hd =>
      ⟨grantAttempt_return hq hop hr hp ho hd, fun x hx hk hm hne => grantAttempt_cover hq hop hr hp ho hd hx hk hm hne⟩⟩⟩,
    ?_, ?_⟩
  · intro k ac prot s m hf hreset ht hc he ha hm o ho hp hk hd fails y hy f hf'
    refine ⟨_, completion_taken hf hreset (by rw [ht]; rfl), afterResult_store m _ s, ?_⟩
    rw [resultTaken_verify ac false prot ht hc he, takeVerify_returnFails id ho hp hk hd fails]
    subst hd hy hf'
    refine ⟨fun h => ?_, fun hne busy covered moves => ?_, fun lost => ?_⟩
    · have follows := afterResult_unplaced m (returnFail_unplaced o ac prot s)
      rw [confirmFollows_mem h] at follows
      cases follows
    · have back := returnFail_back (m := m) (ac := ac) (prot := prot) ho rfl ha hne busy covered moves _ rfl
      rw [Amp.coveredAgain_eq] at back
      exact back
    · exact returnFail_lost_spec ho ha hm lost _ rfl _ rfl
  · intro n s hreset hr hm hf ha o ho hp d hd e he
    refine ⟨relayDone n s, (takeEvent_taken s hreset _).trans (by simp [Line.moving, hr]), ?_, fun hk => ?_, fun hk => ?_⟩
    · exact (reportMove_block arrival_block _).store.trans
        (arrival_block (s.setLine n { s.line n with relayLeft := none })).store
    · exact failedCover_spec hf hm ha ho hp hk d hd e he _ rfl
    · exact failedReturn_spec hf hm ha ho hp hk d hd e he _ rfl
end

section
/-! PROOFS. The requests that read the part: the widths of their replies and the state they leave (O6). -/

namespace Sys2Proof.Machine

variable {s : State} {p : Port}

/-! ### The widths of the reply fields (R171) -/

@[simp] theorem length_enc8 (v : Nat) : (enc8 v).length = 1 := by simp [enc8]
@[simp] theorem length_enc16 (v : Nat) : (enc16 v).length = 2 := by simp [enc16]
@[simp] theorem length_enc24 (v : Nat) : (enc24 v).length = 3 := by simp [enc24]
@[simp] theorem length_encBool (v : Bool) : (encBool v).length = 1 := by simp [encBool]
@[simp] theorem length_encDev (d : Int) : (encDev d).length = 2 := by simp [encDev]
@[simp] theorem length_encPort (p : Port) : (encPort p).length = 1 := by cases p <;> rfl
@[simp] theorem length_encPortTag (r : Requester) : (encPortTag r).length = 2 := by simp [encPortTag]

/-- An optional field is as wide absent as present: the presence byte and the value's width. -/
@[simp] theorem length_encOpt {α : Type} {width : Nat} {f : α → List Byte} (h : ∀ v, (f v).length = width)
    (o : Option α) : (encOpt width f o).length = width + 1 := by
  cases o with
  | none => simp [encOpt]
  | some v => simp [encOpt, h]

/-! ### The widths of the replies (R85, R176, R178) -/

@[simp] theorem length_encStatus (s : State) (k : RecordNo) : (encStatus s k).length = 2 := by
  unfold encStatus; split <;> rfl

@[simp] theorem length_statusMode (s : State) : (statusMode s).length = 9 := rfl

/-- The count of judged records, condition and cause of each of the 23, and the write in flight. -/
@[simp] theorem length_statusStore (s : State) : (statusStore s).length = 50 := by
  simp [statusStore, allRecords]

@[simp] theorem length_statusTable (s : State) : (statusTable s).length = 5 := rfl

@[simp] theorem length_encLineReport (c : LineConfig) : (encLineReport c).length = 21 := by
  simp [encLineReport, encLineAround]

@[simp] theorem length_encLineRuntime (l : Line) : (encLineRuntime l).length = 30 := by simp [encLineRuntime]

@[simp] theorem length_encLineEarth (l : Line) : (encLineEarth l).length = 10 := by simp [encLineEarth]

@[simp] theorem length_encAmpFields (c : AmpConfig) : (encAmpFields c).length = 5 := by simp [encAmpFields]

theorem length_statusReply (p : Port) (s : State) : (statusReply p s).payload.length = 70 := by simp [statusReply]

theorem length_lineReply (l : Line) : (lineReply l).payload.length = 62 := by simp [lineReply]

theorem length_ampReply (x : Amp) : (ampReply x).payload.length = 23 := by simp [ampReply]

/-! ### The two ends of STATUS (R69, R176.1) -/

theorem ofNat_emergPos (asserted : Bool) : BitVec.ofNat 8 (emergPos asserted) = if asserted then 0#8 else 1#8 := by
  cases asserted <;> rfl

theorem ofNat_flagPos (isSet : Bool) : BitVec.ofNat 8 (flagPos isSet) = if isSet then 0#8 else 1#8 := by
  cases isSet <;> rfl

theorem encBool_eq (v : Bool) : encBool v = [if v then 1#8 else 0#8] := by cases v <;> rfl

theorem ofNat_supplyPos (x : Supply) : BitVec.ofNat 8 x.pos = if x = .low then 1#8 else 0#8 := by cases x <;> rfl

/-- Mode control's nine bytes, field by field (R176.1). -/
theorem statusMode_eq (s : State) :
    statusMode s = [BitVec.ofNat 8 s.mc.mode.pos, BitVec.ofNat 8 s.mc.settleCount,
      BitVec.ofNat 8 s.mc.sys.settleRounds, if s.mc.emergInput then 0#8 else 1#8, if s.mc.flagA then 0#8 else 1#8,
      if s.mc.flagB then 0#8 else 1#8, if s.emergency then 1#8 else 0#8, if s.mc.supply = .low then 1#8 else 0#8,
      BitVec.ofNat 8 s.mc.cause.pos] := by
  simp only [statusMode, enc8, encBool_eq, ofNat_emergPos, ofNat_flagPos, ofNat_supplyPos, List.cons_append, List.nil_append]

theorem take_statusReply (p : Port) (s : State) : (statusReply p s).payload.take 9 = statusMode s := by
  simp [statusReply, List.take_append]

theorem getLast?_statusReply (p : Port) (s : State) :
    (statusReply p s).payload.getLast? = some (BitVec.ofNat 8 s.mc.sys.earthDivider) := List.getLast?_concat

/-! ### The checks that a reading request passes (R172, R173) -/

/-- The port interface passes a request that is not long, has the right length and may come from every port; in LOADING, one
that this mode admits. -/
theorem takes_of_reading {q : Request} {payload : List Byte} (hr : s.mc.resetInForce = none)
    (length : payload.length = q.payloadLen) (openToM : q.openToM = true) (short : q.long = false)
    (mode : s.mc.mode ≠ .loading ∨ q.inLoading = true) : s.takes q p payload :=
  ⟨hr, length, fun _ => openToM, fun h => mode.resolve_left (not_not_intro h), fun long => by simp [short] at long⟩

end Sys2Proof.Machine

open Sys2Proof.Machine in
/-- Settles O6: each request hands the state on as it stands, and each reply is a row of fields of fixed widths. -/
theorem readingRequestsChangeNothing : Obligations.ReadingRequestsChangeNothing := by
  intro p tag s hr
  have status : s.takes .status p [] := takes_of_reading hr rfl rfl rfl (.inr rfl)
  refine ⟨⟨_, takeRequest_taken s status fun s => (s, statusReply p s), rfl, length_statusReply p s,
    getLast?_statusReply p s, (take_statusReply p s).trans (statusMode_eq s)⟩, fun hm => ?_⟩
  have line x : s.takes .readLine p [x] := takes_of_reading hr rfl rfl rfl (.inl hm)
  have amp x : s.takes .readAmp p [x] := takes_of_reading hr rfl rfl rfl (.inl hm)
  have queue : s.takes .readQueue p [] := takes_of_reading hr rfl rfl rfl (.inl hm)
  refine ⟨fun n => ?_, fun k => ?_, ?_, fun x => ⟨fun hx => ?_, fun hx => ?_⟩⟩
  · exact ⟨_, lineRequest_taken s n (line _) fun n s => (s, lineReply (s.line n)), rfl, rfl, length_lineReply _⟩
  · exact ⟨_, ampRequest_taken s k (amp _) fun k s => (s, ampReply (s.amp k)), rfl, rfl, length_ampReply _⟩
  · exact ⟨_, takeRequest_taken s queue fun s => (s, ⟨.ok, channelReport s.chan ++ changeoverReport s⟩), rfl⟩
  · exact lineRequest_unnamed (line x) hx fun n s => (s, lineReply (s.line n))
  · exact ampRequest_unnamed (amp x) hx fun k s => (s, ampReply (s.amp k))
end

section
/-! PROOFS. CONFIGURE_AMP: its refusals, and the fields brought into their ranges (O37). -/

namespace Sys2Proof.Machine

variable {s : State} {k : AmpNo}

/-! ### The fields carried and the fields written (R70) -/

/-- No clamp changes a configuration exactly where it lies within the stored ranges (R70, R163). -/
theorem ampClamp_eq_self_iff (c : AmpConfig) : c.clamp = c ↔ ampConfigOk c = true := by
  refine ⟨fun h => h ▸ ampConfigOk_clamp c, fun h => ?_⟩
  simp only [ampConfigOk, Bool.and_eq_true, decide_eq_true_eq] at h
  obtain ⟨⟨amin, raiseCount⟩, clearCount⟩ := h
  rw [AmpConfig.clamp, clampTo_id amin, clampTo_id raiseCount, clampTo_id clearCount]

/-- The fields of a payload that names amplifier `k` and carries them behind its number (R70). -/
theorem ampFieldsAt_ampPayload (k : AmpNo) (r a b rc cc : Byte) (enabled : Bool) :
    ampFieldsAt (ampPayload k ++ [r, a, b, rc, cc]) 1 enabled =
      ⟨if r = 0 then .duty else .standby, a.toNat * 256 + b.toNat, rc.toNat, cc.toNat, enabled⟩ := by
  have duty : byteAt (ampPayload k ++ [r, a, b, rc, cc]) 1 = 0 ↔ r = 0 :=
    ⟨fun h => BitVec.eq_of_toNat_eq h, fun h => h ▸ rfl⟩
  simp only [ampFieldsAt, duty]
  rfl

/-- What keeps an amplifier in its role, as the statement says it (R70). -/
theorem ampNamed_iff (s : State) (k : AmpNo) : s.ampNamed k = true ↔
    (∃ n, (s.line n).cfg.home = k ∨ (s.line n).current = k) ∨
      ∃ d : AmpNo, d ≠ k ∧ (s.amp d).cfg.role = .duty ∧ (s.amp d).carrying = k := by
  simp [State.ampNamed, mem_allLines, mem_allAmps, and_assoc]

/-! ### The request (R70) -/

theorem configureAmp_emergency (payload : List Byte) (he : s.emergency = true) :
    configureAmp payload k s = (s, bare .emergency) := if_pos he

theorem configureAmp_wrongState (payload : List Byte) (he : s.emergency = false) (hs : (s.amp k).state ≠ .disabled) :
    configureAmp payload k s = (s, bare .wrongState) := by
  simp [configureAmp, he, hs]

section Disabled
variable {payload : List Byte} {asked : AmpConfig} (he : s.emergency = false) (hs : (s.amp k).state = .disabled)
  (ha : ampFieldsAt payload 1 (s.amp k).cfg.enabled = asked)
include he hs ha

theorem configureAmp_inUse (hr : asked.role ≠ (s.amp k).cfg.role) (hn : s.ampNamed k = true) :
    configureAmp payload k s = (s, bare .inUse) := by
  simp [configureAmp, he, hs, ha, hr, hn]

theorem configureAmp_writes (h : asked.role = (s.amp k).cfg.role ∨ s.ampNamed k = false) :
    configureAmp payload k s = (s.setAmp k { s.amp k with cfg := asked.clamp },
      bare (if ampConfigOk asked then .ok else .clamped)) := by
  have kept : ¬(asked.role ≠ (s.amp k).cfg.role ∧ s.ampNamed k = true) := by
    rintro ⟨changes, named⟩
    obtain h | h := h
    · exact changes h
    · exact Bool.false_ne_true (h.symm.trans named)
  unfold configureAmp
  dsimp only
  rw [he, if_neg Bool.false_ne_true, if_neg (not_not_intro hs), ha, if_neg kept]
  simp only [ampClamp_eq_self_iff]

end Disabled

end Sys2Proof.Machine

open Sys2Proof.Machine in
/-- Settles O37: the refusals in their order, and the fields carried as the clamp writes them. -/
theorem configureAmpWritesTheClampedFields : Obligations.ConfigureAmpWritesTheClampedFields := by
  rintro p tag r a b rc cc k s ht c rfl
  have first : byteAt (ampPayload k ++ [r, a, b, rc, cc]) 0 = k.val := byteAt_ampPayload k
  have taken : exec (.configureAmp p tag (ampPayload k ++ [r, a, b, rc, cc])) s =
      .next ((configureAmp (ampPayload k ++ [r, a, b, rc, cc]) k s).1.answer p
        (configureAmp (ampPayload k ++ [r, a, b, rc, cc]) k s).2) :=
    (takeRequest_taken s ht _).trans (by rw [onAmp_eq s first])
  rw [taken]
  refine ⟨fun he => by rw [configureAmp_emergency _ he]; rfl, fun he hs => by rw [configureAmp_wrongState _ he hs]; rfl,
    fun he hs asked hasked named hnamed => ⟨fun hr hn => ?_, fun h => ?_⟩⟩
  all_goals
    have fields := (ampFieldsAt_ampPayload k r a b rc cc (s.amp k).cfg.enabled).trans hasked.symm
    have named_eq : s.ampNamed k = named := by rw [hnamed, Bool.eq_iff_iff, ampNamed_iff, decide_eq_true_eq]
  · rw [configureAmp_inUse he hs fields hr (named_eq.trans hn)]
    rfl
  · rw [configureAmp_writes he hs fields (h.imp_right named_eq.trans)]
    rfl
end

section
/-! PROOFS. What joins the changeover queue for the amplifier supervisor, and what grants and moves back leave of an amplifier
that is not FREE (R87 to R91, R96). -/

namespace Sys2Proof.Machine

variable {s t u v : State} {d j k x : AmpNo} {o : Operation} {e : CoEntry}

/-! ### The standby pool (R88) -/

/-- From `s` to `t` the standby pool stands: the roles, the carrying amplifiers, and which amplifiers are FREE. -/
def PoolStands (s t : State) : Prop := ∀ j, (t.amp j).cfg.role = (s.amp j).cfg.role ∧
  (t.amp j).carrying = (s.amp j).carrying ∧ ((t.amp j).state = .free ↔ (s.amp j).state = .free)

namespace PoolStands

theorem of_amps (h : t.amps = s.amps) : PoolStands s t := fun j => by rw [amp_congr h]; exact ⟨rfl, rfl, .rfl⟩

theorem trans (h : PoolStands s t) (g : PoolStands t u) : PoolStands s u := fun j =>
  have ⟨role, carrying, free⟩ := h j
  have ⟨role', carrying', free'⟩ := g j
  ⟨role'.trans role, carrying'.trans carrying, free'.trans free⟩

theorem of_amp (s : State) (k : AmpNo) {a : Amp} (hr : a.cfg.role = (s.amp k).cfg.role)
    (hc : a.carrying = (s.amp k).carrying) (hf : a.state = .free ↔ (s.amp k).state = .free) :
    PoolStands s (s.setAmp k a) := fun j => by
  rw [amp_setAmp]; split
  · next e => rw [e]; exact ⟨hr, hc, hf⟩
  · exact ⟨rfl, rfl, .rfl⟩

theorem setAmpState (s : State) {st : AmpState} (h : st ≠ .free) (hk : (s.amp k).state ≠ .free) :
    PoolStands s (setAmpState k st s) := by
  unfold Machine.setAmpState; dsimp only; split
  · exact .of_amps rfl
  · exact .of_amp s k rfl rfl (iff_of_false h hk)

theorem dropCover (s : State) (k : AmpNo) : PoolStands s (dropCover k s) := .of_amp s k rfl rfl .rfl

/-- The same standby is chosen. -/
theorem chosen (h : PoolStands s t) (d : AmpNo) : t.chosenStandby d = s.chosenStandby d := by
  have grantable : t.grantable d = s.grantable d := by
    funext x
    rw [Bool.eq_iff_iff, grantable_iff, grantable_iff]
    simp only [(h _).1, (h _).2.1, (h _).2.2]
  rw [State.chosenStandby, grantable, State.chosenStandby]

end PoolStands

/-! ### Entries that join (R87, R89, R90) -/

theorem find?_insertEntry (e : CoEntry) (l : List CoEntry) (h : ∀ z ∈ l, z.duty ≠ e.duty) :
    (insertEntry e l).find? (·.duty = e.duty) = some e := by
  induction l with
  | nil => simp [insertEntry]
  | cons z l ih =>
    obtain ⟨first, rest⟩ := List.forall_mem_cons.mp h
    unfold insertEntry; split
    · simp
    · rw [List.find?_cons_of_neg (by simpa using first)]
      exact ih rest

theorem entryOf_joinEntry (h : ∀ z ∈ s.co.queue, z.duty ≠ e.duty) : (joinEntry e s).co.entryOf e.duty = some e :=
  find?_insertEntry e s.co.queue h

theorem duty_of_mem_removeEntry (d : AmpNo) (s : State) : ∀ z ∈ (removeEntry d s).co.queue, z.duty ≠ d := fun z hz => by
  simpa using (List.mem_filter.mp hz).2

theorem entryOf_removeEntry (d : AmpNo) (s : State) : (removeEntry d s).co.entryOf d = none :=
  List.find?_eq_none.mpr fun z hz => by simpa using duty_of_mem_removeEntry d s z hz

theorem entryOf_none_iff : s.co.entryOf d = none ↔ ∀ z ∈ s.co.queue, z.duty ≠ d := by
  simp [Changeover.entryOf, List.find?_eq_none]

/-- Without an AUTO COVER of `d` in the queue no NO_COVER is raised (R90). -/
theorem raiseNoCover_quiet (h : ∀ e, s.co.entryOf d = some e → e.kind = .cover → e.origin ≠ .auto) : raiseNoCover d s = s := by
  unfold raiseNoCover; split
  · next e he => exact if_neg fun ⟨kind, origin, _⟩ => h e he kind origin
  · rfl

/-- NO_COVER of `d` raised where no standby is grantable to it (R90). -/
def noCoverRaised (d : AmpNo) (s : State) : State := if s.chosenStandby d = none then raise (.noCover d) none s else s

theorem noCoverRaised_faults {f : State} (h : SameTable f t) (hc : t.chosenStandby d = s.chosenStandby d) :
    (noCoverRaised d t).faults = (if s.chosenStandby d = none then raise (.noCover d) none f else f).faults := by
  unfold noCoverRaised
  rw [hc]; split
  · exact (raise_table _ _ h).faults
  · exact h.faults

/-- What an AUTO COVER leaves that joins a queue without an entry of its amplifier, with NO_COVER as R90 requires. -/
structure CoverJoins (e : CoEntry) (s v : State) : Prop where
  amps : v.amps = s.amps
  co : v.co = { s.co with queue := insertEntry e s.co.queue }
  faults : v.faults = (noCoverRaised e.duty s).faults

theorem coverJoins (hk : e.kind = .cover) (ho : e.origin = .auto) (h : ∀ z ∈ s.co.queue, z.duty ≠ e.duty) :
    CoverJoins e s (raiseNoCover e.duty (joinEntry e s)) := by
  have raised : raiseNoCover e.duty (joinEntry e s) = noCoverRaised e.duty (joinEntry e s) := by
    unfold raiseNoCover noCoverRaised
    rw [entryOf_joinEntry h]
    simp only [hk, ho, true_and, Option.isNone_iff_eq_none]
  have same := raiseNoCover_same (joinEntry e s) e.duty
  refine ⟨same.amps, same.co, ?_⟩
  rw [raised]
  exact noCoverRaised_faults ⟨rfl, rfl, rfl⟩ rfl

/-! ### Requests while an operation is in flight (R89) -/

theorem afterRequest_busy (arr : Arrive) (d : AmpNo) (h : s.co.op.isSome) : afterRequest arr d s = raiseNoCover d s :=
  grantAttempt_idle arr (.inl (by rw [(raiseNoCover_same s d).co]; exact h))

/-- The sequence counter where an entry takes its sequence number from it, and where it carries one (R89). -/
def Changeover.sequenced (c : Changeover) (carried : Option Word) : Changeover :=
  match carried with
  | none => { c with seqCounter := c.seqCounter + 1 }
  | some _ => c

theorem seqOr_eq (carried : Option Word) (s : State) :
    seqOr carried s = (carried.getD s.co.seqCounter, { s with co := s.co.sequenced carried }) := by
  cases carried <;> rfl

/-- What asking for an AUTO COVER of `d` leaves while operation `o` is in flight (R89). -/
structure CoverAsked (d : AmpNo) (carried : Option Word) (o : Operation) (s v : State) : Prop where
  amps : v.amps = s.amps
  operated : o.duty = d → v.co = { s.co with op := some { o with origin := .auto } } ∧ v.faults = s.faults
  faults : o.duty ≠ d → v.faults = (noCoverRaised d s).faults
  joins : o.duty ≠ d → (∀ z ∈ s.co.queue, z.duty ≠ d) → v.co = { s.co.sequenced carried with
    queue := insertEntry ⟨d, .cover, .auto, none, carried.getD s.co.seqCounter⟩ s.co.queue }
  replaces : o.duty ≠ d → ∀ z, s.co.queue.find? (fun z => z.duty = d) = some z → v.co = { s.co with
    queue := insertEntry { z with kind := .cover, origin := .auto } (s.co.queue.filter fun z => z.duty ≠ d) }

/-- The entry of `d` replaced by an AUTO COVER. -/
theorem coverReplaces (he : s.co.entryOf d = some e) :
    CoverJoins { e with kind := .cover, origin := .auto } (removeEntry d s)
      (raiseNoCover d (replaceEntry { e with kind := .cover, origin := .auto } s)) := by
  obtain ⟨-, rfl⟩ := Changeover.entryOf_some he
  exact coverJoins (e := { e with kind := .cover, origin := .auto }) rfl rfl (duty_of_mem_removeEntry e.duty s)

theorem askAutoCover_busy (arr : Arrive) (d : AmpNo) (carried : Option Word) (ho : s.co.op = some o) :
    CoverAsked d carried o s (askAutoCover arr d carried s) := by
  have operates : s.co.operatesOn d = true ↔ o.duty = d := by simp [Changeover.operatesOn, ho]
  unfold askAutoCover
  by_cases hd : o.duty = d
  · rw [if_pos (operates.mpr hd)]
    refine ⟨rfl, fun _ => ⟨?_, rfl⟩, fun h => absurd hd h, fun h => absurd hd h, fun h => absurd hd h⟩
    simp only [ho, Option.map_some]
  · rw [if_neg (mt operates.mp hd)]
    split
    · next e he =>
      rw [afterRequest_busy arr d (by exact ho ▸ rfl)]
      obtain ⟨amps, co, faults⟩ := coverReplaces he
      obtain ⟨mem, duty⟩ := Changeover.entryOf_some he
      refine ⟨amps, fun h => absurd h hd, fun _ => ?_, fun _ none => absurd duty (none e mem), fun _ z hz => ?_⟩
      · subst duty
        exact faults.trans (noCoverRaised_faults ⟨rfl, rfl, rfl⟩ rfl)
      · obtain rfl := Option.some.inj (he.symm.trans hz)
        exact co
    · next he =>
      have fresh := entryOf_none_iff.mp he
      rw [seqOr_eq]
      dsimp only
      have queue : (s.co.sequenced carried).queue = s.co.queue := by cases carried <;> rfl
      have op : (s.co.sequenced carried).op = s.co.op := by cases carried <;> rfl
      rw [afterRequest_busy arr d (by show (s.co.sequenced carried).op.isSome = true; rw [op, ho]; rfl)]
      obtain ⟨amps, co, faults⟩ := coverJoins (s := { s with co := s.co.sequenced carried })
        (e := ⟨d, .cover, .auto, none, carried.getD s.co.seqCounter⟩) rfl rfl (by rw [queue]; exact fresh)
      exact ⟨amps, fun h => absurd h hd, fun _ => faults.trans (noCoverRaised_faults ⟨rfl, rfl, rfl⟩ rfl),
        fun _ _ => by rw [co, queue], fun _ z hz => by cases he.symm.trans hz⟩

/-- What asking for an AUTO RETURN of `d` leaves while operation `o` is in flight (R89). -/
structure ReturnAsked (d : AmpNo) (carried : Option Word) (o : Operation) (s v : State) : Prop where
  amps : v.amps = s.amps
  faults : v.faults = s.faults
  operated : o.duty = d → v.co = s.co
  joins : o.duty ≠ d → (∀ z ∈ s.co.queue, z.duty ≠ d) → v.co = { s.co.sequenced carried with
    queue := insertEntry ⟨d, .returnLines, .auto, none, carried.getD s.co.seqCounter⟩ s.co.queue }
  stands : ∀ z, s.co.queue.find? (fun z => z.duty = d) = some z → v.co = s.co

theorem askAutoReturn_busy (arr : Arrive) (d : AmpNo) (carried : Option Word) (ho : s.co.op = some o) :
    ReturnAsked d carried o s (askAutoReturn arr d carried s) := by
  have operates : s.co.operatesOn d = true ↔ o.duty = d := by simp [Changeover.operatesOn, ho]
  unfold askAutoReturn
  by_cases hd : o.duty = d
  · rw [if_pos (operates.mpr hd)]
    exact ⟨rfl, rfl, fun _ => rfl, fun h => absurd hd h, fun _ _ => rfl⟩
  · rw [if_neg (mt operates.mp hd)]
    split
    · next e he =>
      obtain ⟨mem, duty⟩ := Changeover.entryOf_some he
      rw [grantAttempt_idle arr (.inl (by rw [ho]; rfl))]
      exact ⟨rfl, rfl, fun _ => rfl, fun _ none => absurd duty (none e mem), fun _ _ => rfl⟩
    · next he =>
      rw [seqOr_eq]
      dsimp only
      have queue : (s.co.sequenced carried).queue = s.co.queue := by cases carried <;> rfl
      have op : (s.co.sequenced carried).op = s.co.op := by cases carried <;> rfl
      have entry := entryOf_joinEntry (s := { s with co := s.co.sequenced carried })
        (e := ⟨d, .returnLines, .auto, none, carried.getD s.co.seqCounter⟩) (by rw [queue]; exact entryOf_none_iff.mp he)
      rw [afterRequest_busy arr d (by show (s.co.sequenced carried).op.isSome = true; rw [op, ho]; rfl),
        raiseNoCover_quiet fun e h => by obtain rfl := Option.some.inj (entry.symm.trans h); nofun]
      exact ⟨rfl, rfl, fun h => absurd h hd, fun _ _ => by rw [joinEntry, queue], fun z hz => by cases he.symm.trans hz⟩

end Sys2Proof.Machine
end

section
/-! PROOFS. What an AMP reading that has been taken leaves of an amplifier that is not FREE, of the mode and of the move that is
waited for, and what the completion leaves of the rest (R75 to R81). -/

namespace Sys2Proof.Machine

variable {s t u v : State} {d j k x : AmpNo} {o : Operation} {e : CoEntry} {m : Measurement}

/-! ### An amplifier that is not FREE (R91, R96) -/

/-- A grant attempt leaves of an amplifier that is not FREE all but its carrying amplifier, and that too where no entry is its. -/
theorem grantAttempt_amp (h : (s.amp k).state ≠ .free) : ∃ c, (grantAttempt id s).amp k = { s.amp k with carrying := c } ∧
    ((∀ e ∈ s.co.queue, e.duty ≠ k) → c = (s.amp k).carrying) := by
  have moved : ∀ (e : CoEntry) (o : Operation) (x y z : AmpNo) (w : State), w.amp k = s.amp k → e ∈ s.co.queue →
      ∃ c, (afterGrantMove id o (setCarrying e.duty z (moveLines x y w))).amp k = { s.amp k with carrying := c } ∧
        ((∀ e ∈ s.co.queue, e.duty ≠ k) → c = (s.amp k).carrying) := fun e o x y z w hw mem => by
    rw [amp_congr (afterGrantMove_id_parts o _).1, setCarrying, amp_setAmp, amp_congr (moveLines_frame w x y).work.amps,
      amp_congr (moveLines_frame w x y).work.amps]
    split
    · next own =>
      rw [← own, hw]
      exact ⟨z, rfl, fun none => absurd own.symm (none e mem)⟩
    · exact ⟨_, hw, fun _ => rfl⟩
  have stays : ∃ c, s.amp k = { s.amp k with carrying := c } ∧
      ((∀ e ∈ s.co.queue, e.duty ≠ k) → c = (s.amp k).carrying) := ⟨_, rfl, fun _ => rfl⟩
  unfold grantAttempt; split
  · exact stays
  · split
    · next e he =>
      have mem := List.mem_of_find?_eq_some he
      unfold grantEntry; split
      · split
        · next x hx =>
          rw [grantCover_eq]
          exact moved e _ _ _ _ _ ((coverBegun_parts e (chosen_free hx)).others k fun e => h (e ▸ chosen_free hx)) mem
        · exact stays
      · rw [grantReturn_eq]
        exact moved e _ _ _ _ _ rfl mem
    · exact stays

/-- From `s` to `t` amplifier `k` serves as it did: its state with its stamp, the amplifier it covers, and its condition. -/
def Serves (k : AmpNo) (s t : State) : Prop := (t.amp k).state = (s.amp k).state ∧ (t.amp k).stamp = (s.amp k).stamp ∧
  (t.amp k).coveredAmp = (s.amp k).coveredAmp ∧ (t.amp k).condition = (s.amp k).condition

namespace Serves

theorem of_amp (h : t.amp k = s.amp k) : Serves k s t := by rw [Serves, h]; exact ⟨rfl, rfl, rfl, rfl⟩

theorem of_amps (h : t.amps = s.amps) : Serves k s t := of_amp (amp_congr h k)

theorem trans (h : Serves k s t) (g : Serves k t u) : Serves k s u :=
  have ⟨state, stamp, covered, condition⟩ := h
  have ⟨state', stamp', covered', condition'⟩ := g
  ⟨state'.trans state, stamp'.trans stamp, covered'.trans covered, condition'.trans condition⟩

theorem of_carrying {c : AmpNo} (h : t.amp k = { s.amp k with carrying := c }) : Serves k s t := by
  rw [Serves, h]; exact ⟨rfl, rfl, rfl, rfl⟩

theorem dropCover (s : State) (d k : AmpNo) : Serves k s (dropCover d s) := by
  rw [Serves, Machine.dropCover, amp_setAmp]; split
  · next h => rw [h]; exact ⟨rfl, rfl, rfl, rfl⟩
  · exact ⟨rfl, rfl, rfl, rfl⟩

theorem setAmpState (s : State) (st : AmpState) (h : k ≠ d) : Serves k s (setAmpState d st s) :=
  of_amp (by rw [amp_setAmpState, if_neg fun e => h e.1])

theorem grantAttempt (h : (s.amp k).state ≠ .free) : Serves k s (grantAttempt id s) :=
  have ⟨_, amp, _⟩ := grantAttempt_amp h
  .of_carrying amp

theorem afterRequest (d : AmpNo) (h : (s.amp k).state ≠ .free) : Serves k s (afterRequest id d s) := by
  have amps := (raiseNoCover_same s d).amps
  exact (of_amps amps).trans (.grantAttempt (by rw [amp_congr amps]; exact h))

theorem askAutoCover (d : AmpNo) (q : Option Word) (h : (s.amp k).state ≠ .free) : Serves k s (askAutoCover id d q s) := by
  unfold Machine.askAutoCover; split
  · exact of_amps rfl
  · split
    · exact .afterRequest (s := replaceEntry _ s) d h
    · rw [seqOr_eq]
      exact .afterRequest (s := joinEntry _ { s with co := s.co.sequenced q }) d h

theorem askAutoReturn (d : AmpNo) (q : Option Word) (h : (s.amp k).state ≠ .free) : Serves k s (askAutoReturn id d q s) := by
  unfold Machine.askAutoReturn; split
  · exact of_amps rfl
  · split
    · exact .grantAttempt h
    · rw [seqOr_eq]
      exact .afterRequest (s := joinEntry _ { s with co := s.co.sequenced q }) d h

end Serves

/-- What a failed cover re-queues touches no amplifier that is FAULTY, and joins at most an entry of its duty amplifier (R97). -/
theorem rejoinFailedCover_apart (o : Operation) (v : State) (h : (v.amp k).state = .faulty) :
    (rejoinFailedCover o v).amp k = v.amp k ∧
      ∀ z ∈ (rejoinFailedCover o v).co.queue, z ∈ v.co.queue ∨ z.duty = o.duty := by
  have joined : ∀ (z e : CoEntry), e.duty = o.duty → z ∈ insertEntry e v.co.queue → z ∈ v.co.queue ∨ z.duty = o.duty :=
    fun z e he hz => (mem_insertEntry.mp hz).symm.imp_right fun h => (congrArg CoEntry.duty h).trans he
  have healthy : ∀ w : State, (v.amp o.duty).state = .failed → w.amp k = v.amp k → (recovered o.duty w).amp k = v.amp k :=
    fun w failed hw => by
      have other : k ≠ o.duty := fun e => by rw [← e, h] at failed; cases failed
      obtain ⟨-, -, -, -, amps, -⟩ := recovered_frame o.duty w
      rw [amp_congr amps, amp_setAmpState, if_neg fun e => other e.1, hw]
  have queue : ∀ w : State, (recovered o.duty w).co.queue = w.co.queue := fun w =>
    congrArg Changeover.queue (recovered_frame o.duty w).2.2.1
  unfold rejoinFailedCover
  dsimp only
  split
  · have same := (rejoinAutoCover_frame o.duty o.seq o.requester v).1
    exact ⟨amp_congr same.amps k, fun z hz => joined z _ rfl (by rw [same.co] at hz; exact hz)⟩
  · next r failed _ _ =>
    refine ⟨healthy _ failed rfl, fun z hz => joined z ⟨o.duty, .cover, .manual, some r, o.seq⟩ rfl ?_⟩
    have same := queue (joinEntry ⟨o.duty, .cover, .manual, some r, o.seq⟩ v)
    rw [recovered] at same
    rw [same] at hz
    exact hz
  · next failed _ _ =>
    refine ⟨healthy _ failed rfl, fun z hz => .inl ?_⟩
    have same := queue v
    rw [recovered] at same
    rw [same] at hz
    exact hz
  · exact ⟨rfl, fun z hz => joined z _ rfl hz⟩
  · exact ⟨rfl, fun z hz => joined z _ rfl hz⟩
  · exact ⟨rfl, fun z hz => .inl hz⟩

/-! ### A cover that is given up (R96, R97) -/

theorem current_moveLines {n : LineNo} (y : AmpNo) (h : (s.line n).current = x) : ((moveLines x y s).line n).current = y := by
  rw [line_moveLines, if_pos h, State.movedLine]
  dsimp only
  split <;> rfl

/-- The cover in flight given up, before its move back is reported (R96). -/
def coverGivenUp (o : Operation) (s : State) : State :=
  setPhase .movingBack (setCarrying o.duty o.duty (moveLines o.standby o.duty (withdrawVerify (.amp o.standby) s)))

theorem coverLostInFlight_eq (arr : Arrive) (o : Operation) (s : State) :
    coverLostInFlight arr o s = reportMove arr (coverGivenUp o s) := rfl

structure CoverGivenUp (o : Operation) (s v : State) : Prop where
  amp : ∀ j, v.amp j = if j = o.duty then { s.amp o.duty with carrying := o.duty } else s.amp j
  co : v.co = { s.co with op := some { o with phase := .movingBack } }
  mc : v.mc = s.mc
  faults : v.faults = s.faults
  verify : .amp o.standby ∉ v.chan.verify
  lines : ∀ n, (s.line n).current = o.standby → (v.line n).current = o.duty
  waits : s.moveStarts o.standby o.duty = true → v.move ≠ some []

theorem coverGivenUp_parts (ho : s.co.op = some o) : CoverGivenUp o s (coverGivenUp o s) := by
  unfold coverGivenUp
  have withdrawn : .amp o.standby ∉ (withdrawVerify (.amp o.standby) s).chan.verify := by simp [withdrawVerify]
  have frame := moveLines_frame (withdrawVerify (.amp o.standby) s) o.standby o.duty
  have current := fun n (h : (s.line n).current = o.standby) =>
    current_moveLines (s := withdrawVerify (.amp o.standby) s) (n := n) o.duty h
  have waits := fun h : s.moveStarts o.standby o.duty = true => moveLines_waits (s := withdrawVerify (.amp o.standby) s) h
  generalize moveLines o.standby o.duty (withdrawVerify (.amp o.standby) s) = w at *
  have co : w.co = s.co := frame.work.co
  have amps : w.amps = s.amps := frame.work.amps
  refine ⟨fun j => ?_, ?_, frame.work.mc, frame.faults, by rw [← frame.verify] at withdrawn; exact withdrawn, current, waits⟩
  · show (setCarrying o.duty o.duty w).amp j = _
    rw [setCarrying, amp_setAmp, amp_congr amps, amp_congr amps]
  · simp only [setPhase, setCarrying, State.setAmp, co, ho, Option.map_some]

/-- What stands of a FAULTY amplifier where the move back may be done at once (R96, R97). -/
theorem coverLostInFlight_amp (ho : s.co.op = some o) (hk : o.kind = .cover) (ha : s.mc.mode = .active)
    (h : (s.amp k).state = .faulty) : ∃ c, (coverLostInFlight id o s).amp k = { s.amp k with carrying := c } ∧
      (o.duty ≠ k → (∀ e ∈ s.co.queue, e.duty ≠ k) → c = (s.amp k).carrying) := by
  have parts := coverGivenUp_parts ho
  rw [coverLostInFlight_eq]
  generalize coverGivenUp o s = w at parts
  obtain ⟨c, own, same⟩ : ∃ c, w.amp k = { s.amp k with carrying := c } ∧ (o.duty ≠ k → c = (s.amp k).carrying) := by
    rw [parts.amp]; split
    · next own => exact ⟨o.duty, by rw [own], fun ne => absurd own.symm ne⟩
    · exact ⟨_, rfl, fun _ => rfl⟩
  unfold reportMove; split
  · obtain ⟨b, hb⟩ : ∃ b : Operation, b = { o with phase := .movingBack } := ⟨_, rfl⟩
    have done : moveDone id { w with move := none } =
        grantAttempt id (rejoinFailedCover b (State.operationOver none { w with move := none })) := by
      have mode : (rejoinFailedCover b (State.operationOver none { w with move := none })).mc.mode ≠ .stopping := by
        rw [(rejoinFailedCover_frame _ b).2.1]
        show w.mc.mode ≠ .stopping
        rw [parts.mc, ha]
        decide
      rw [← endOperation_eq id none (rejoinFailedCover b) _ mode]
      unfold moveDone
      simp only [parts.co, hk, hb]
    obtain ⟨kept, joins⟩ := rejoinFailedCover_apart (k := k) b (State.operationOver none { w with move := none })
      (by show (w.amp k).state = _; rw [own]; exact h)
    have now : (rejoinFailedCover b (State.operationOver none { w with move := none })).amp k =
        { s.amp k with carrying := c } := kept.trans own
    rw [done]
    obtain ⟨c', granted, apart⟩ := grantAttempt_amp (k := k) (by rw [now]; show (s.amp k).state ≠ _; rw [h]; decide)
    rw [now] at granted apart
    refine ⟨c', granted, fun ne none => (apart fun e he => ?_).trans (same ne)⟩
    obtain waits | joined := joins e he
    · have queue : w.co.queue = s.co.queue := by rw [parts.co]
      exact none e (by rw [← queue]; exact waits)
    · rw [joined, hb]
      exact ne
  · exact ⟨c, own, fun ne _ => same ne⟩

/-! ### The mode and the move that is waited for (R7) -/

/-- An ACTIVE part stays ACTIVE. -/
def StaysActive (s t : State) : Prop := s.mc.mode = .active → t.mc.mode = .active

theorem staysActive_grants : GrantClosed StaysActive where
  refl _ := id
  trans h g := g ∘ h
  table h hs := by rw [h.mc]; exact hs
  verify _ _ _ := id
  co _ _ _ := id
  move _ _ := id
  amp _ _ _ _ := id
  moveLine s y n hs := by rw [(moveLine_work s n y).mc]; exact hs
  settles _ _ := id
  active _ _ _ := rfl
  freeze _ hs _ _ h := absurd (hs.symm.trans h) (by decide)

/-- Where no move that is done waits in `s`, none does in `t`. -/
def MoveStands (s t : State) : Prop := s.move ≠ some [] → t.move ≠ some []

namespace MoveStands

theorem of_move (h : t.move = s.move) : MoveStands s t := by rw [MoveStands, h]; exact id

theorem trans (h : MoveStands s t) (g : MoveStands t u) : MoveStands s u := g ∘ h

theorem setAmpState (k : AmpNo) (st : AmpState) (s : State) : MoveStands s (setAmpState k st s) := by
  unfold Machine.setAmpState; dsimp only
  split <;> exact of_move rfl

theorem grantAttempt (s : State) : MoveStands s (grantAttempt id s) := (grantAttempt_attempted s).move

theorem afterRequest (d : AmpNo) (s : State) : MoveStands s (afterRequest id d s) :=
  (of_move (raiseNoCover_same s d).move).trans (.grantAttempt _)

theorem askAutoCover (d : AmpNo) (q : Option Word) (s : State) : MoveStands s (askAutoCover id d q s) := by
  unfold Machine.askAutoCover; split
  · exact of_move rfl
  · split
    · exact .afterRequest d (replaceEntry _ s)
    · rw [seqOr_eq]
      exact .afterRequest d (joinEntry _ { s with co := s.co.sequenced q })

theorem askAutoReturn (d : AmpNo) (q : Option Word) (s : State) : MoveStands s (askAutoReturn id d q s) := by
  unfold Machine.askAutoReturn; split
  · exact of_move rfl
  · split
    · exact .grantAttempt s
    · rw [seqOr_eq]
      exact .afterRequest d (joinEntry _ { s with co := s.co.sequenced q })

theorem rejoinFailedCover (o : Operation) (s : State) : MoveStands s (rejoinFailedCover o s) := by
  have cleared : ∀ w : State, MoveStands w (clear (.noCover o.duty) none (Machine.setAmpState o.duty .healthy w)) := fun w =>
    (setAmpState o.duty .healthy w).trans (of_move (clear_same _ _ _).move)
  unfold Machine.rejoinFailedCover; dsimp only
  split
  · exact of_move (rejoinAutoCover_frame o.duty o.seq o.requester s).1.move
  · exact cleared (joinEntry _ s)
  · exact cleared s
  · exact of_move rfl
  · exact of_move rfl
  · exact of_move rfl

theorem endOperation (c : Option CompletionOutcome) {rejoin : State → State} (hr : ∀ s, MoveStands s (rejoin s)) (s : State) :
    MoveStands s (endOperation id c rejoin s) := by
  have next : ∀ w : State, MoveStands w (if w.mc.mode = .stopping then checkStopped w else Machine.grantAttempt id w) := by
    intro w; split
    · unfold checkStopped; split
      · exact of_move (signalAll_same _).move
      · exact of_move rfl
    · exact .grantAttempt w
  unfold Machine.endOperation; dsimp only
  refine trans ?_ ((hr _).trans (next _))
  split
  · exact of_move (completeIfAny_same s _ _).move
  · exact of_move rfl

theorem moveDone (s : State) : MoveStands s (moveDone id s) := by
  unfold Machine.moveDone; split
  · exact of_move rfl
  · next o _ =>
    split
    · unfold beginVerify
      rw [placeVerify_id]
      exact of_move rfl
    · exact of_move rfl
    · exact endOperation none (rejoinFailedCover o) s
    · refine endOperation _ (fun w => ?_) s
      split
      · exact of_move (rejoinAutoCover_frame o.duty _ none w).1.move
      · exact of_move rfl

end MoveStands

/-- The report of a move leaves none that is done. -/
theorem reportMove_stands (s : State) : (reportMove id s).move ≠ some [] := by
  unfold reportMove; split
  · exact MoveStands.moveDone { s with move := none } nofun
  · next h => exact h

namespace MoveStands

theorem loseCover (d : AmpNo) (s : State) : MoveStands s (loseCover id d s) := by
  have lost : ∀ st : AmpState, MoveStands s (Machine.setAmpState d st (dropCover d s)) := fun st =>
    (of_move (t := dropCover d s) rfl).trans (setAmpState d st _)
  unfold Machine.loseCover; dsimp only
  split
  · exact (lost .failed).trans (askAutoCover d _ _)
  · exact (lost .healthy).trans (askAutoReturn d _ _)
  · exact of_move rfl

theorem standbyFails (k : AmpNo) (s : State) : MoveStands s (standbyFails id k s) := by
  have faulty : MoveStands s (dropCovered k (Machine.setAmpState k .faulty s)) :=
    (setAmpState k .faulty s).trans (of_move rfl)
  unfold Machine.standbyFails; dsimp only
  split
  · exact faulty
  · exact fun _ => reportMove_stands _
  · exact faulty.trans (loseCover _ _)

theorem dutyFails (k : AmpNo) (s : State) : MoveStands s (dutyFails id k s) := by
  unfold Machine.dutyFails; split
  · exact (setAmpState k .failed s).trans (askAutoCover k _ _)
  · exact (setAmpState k .failed s).trans (askAutoCover k _ _)
  · exact setAmpState k .covered s
  · split
    · split
      · exact .afterRequest k (replaceEntry _ s)
      · exact of_move rfl
    · exact of_move rfl
  · exact of_move rfl

theorem confirmFail (k : AmpNo) (snap : Option Snapshot) (s : State) : MoveStands s (confirmFail id k snap s) := by
  have raised : MoveStands s (raise (.ampFail k) snap s) := of_move (raise_same s _ _).move
  unfold Machine.confirmFail; dsimp only
  split
  · exact raised.trans (dutyFails k _)
  · exact raised.trans (standbyFails k _)

theorem recoverQueued (k : AmpNo) (e : CoEntry) (s : State) : MoveStands s (recoverQueued id k e s) := by
  unfold Machine.recoverQueued; dsimp only
  refine trans ?_ ((of_move (clear_same _ _ _).move).trans (.afterRequest k _))
  split
  · split
    · exact (setAmpState k .healthy s).trans (of_move rfl)
    · exact (setAmpState k .healthy s).trans (of_move rfl)
  · exact of_move rfl

theorem confirmNormal (k : AmpNo) (snap : Option Snapshot) (s : State) : MoveStands s (confirmNormal id k snap s) := by
  have cleared : MoveStands s (clear (.ampFail k) snap s) := of_move (clear_same s _ _).move
  unfold Machine.confirmNormal; dsimp only
  split
  · exact cleared.trans ((setAmpState k .free _).trans (.grantAttempt _))
  · split
    · exact cleared
    · split
      · split
        · exact cleared.trans (recoverQueued k _ _)
        · exact cleared
      · exact cleared
  · exact cleared

theorem stepSuspect (k : AmpNo) (s : State) : MoveStands s (stepSuspect k s) := by
  unfold Machine.stepSuspect; dsimp only
  split
  · exact setAmpState k .suspect s
  · split
    · exact setAmpState k .healthy s
    · exact of_move rfl

theorem ampStepped (k : AmpNo) (d : Debounce Condition) (snap : Option Snapshot) (s : State) :
    MoveStands s (ampStepped id k d snap s) := by
  unfold Machine.ampStepped; split
  · split
    · exact confirmFail k snap s
    · exact confirmNormal k snap s
  · exact stepSuspect k s

end MoveStands

/-! ### The completion behind an AMP reading in ACTIVE (R32, R36) -/

/-- `x` is not in the verify queue, and no end of a round moves the mode to ACTIVE. -/
def State.unasked (s : State) (x : Subject) : Prop := s.mc.mode ≠ .settling ∧ x ∉ s.chan.verify

theorem endRound_unasked {x : Subject} (h : s.unasked x) : (endRound s).unasked x := by
  have counted : countRound s.roundOver = s.roundOver := if_neg h.1
  have same := signalAll_same s.roundOver
  have signalled : (signalAll s.roundOver).unasked x := by
    rw [State.unasked, same.mc, same.chan]
    exact h
  rw [endRound_eq, counted]; split
  · exact signalled
  · exact signalled

theorem takeSlot_unasked {x : Subject} (r : Round) (i : Nat) (y : Target) (h : s.unasked x) : (takeSlot r i y s).unasked x := by
  unfold takeSlot; split
  · exact h
  · exact h

/-- Outside SETTLING the search puts no subject into the verify queue. -/
theorem unasked_search (x : Subject) : SearchKeeps (State.unasked · x) where
  verify s _ h := by
    obtain hp | ⟨pre, y, rest, hs, hp, hy⟩ := first_or_none s.grantsVerify s.chan.verify
    · rw [tryVerify_none s hp]
      exact ⟨h.1, fun hm => h.2 (List.mem_filter.mp hm).1⟩
    · rw [tryVerify_some s hs hp hy]
      have absent := h.2
      rw [hs] at absent
      obtain ⟨hpre, -, hrest⟩ : x ∉ pre ∧ ¬x = y ∧ x ∉ rest := by simpa using absent
      exact ⟨h.1, by simp [hpre, hrest]⟩
  confirm s _ h := by
    obtain hp | ⟨pre, y, rest, hs, hp, hy⟩ := first_or_none s.grantsConfirm s.chan.confirm
    · rw [tryConfirm_none s hp]
      exact h
    · rw [tryConfirm_some s hs hp hy]
      exact h
  learn s _ h := by
    unfold tryLearn; split
    · exact h
    · split
      · exact h
      · exact h
  scan s _ h := by
    unfold tryScan; split
    · exact h
    · split
      · exact h
      · split
        · exact takeSlot_unasked _ _ _ h
        · unfold tryFirstSlot; split
          · exact endRound_unasked h
          · split
            · exact takeSlot_unasked _ _ _ (endRound_unasked h)
            · exact endRound_unasked h

theorem afterResult_unasked {x : Subject} (hm : s.move ≠ some []) (h : s.unasked x) : (afterResult m s).unasked x := by
  have slot : (slotCompleted m s).unasked x := by
    unfold slotCompleted; split
    · exact endRound_unasked h
    · exact h
  rw [afterResult_idle hm]
  refine (unasked_search x).channelFree (fun u hu => ⟨?_, by rw [enterStandby_chan]; exact hu.2⟩) slot
  have mode : (enterStandby u).mc.mode = .standby := congrArg ModeControl.mode (signalAll_same _).mc
  rw [mode]
  decide

/-- What the completion leaves of a taken AMP reading. -/
structure Settled (v t : State) : Prop where
  amp : ∀ j, t.amp j = v.amp j
  co : t.co = v.co
  faults : t.faults = v.faults
  line : ∀ n, t.line n = v.line n
  verify : ∀ x, x ∉ v.chan.verify → x ∉ t.chan.verify

theorem afterResult_settled (ha : v.mc.mode = .active) (hm : v.move ≠ some []) :
    Settled v (afterResult m (placeAmpIfCounting k v)) := by
  have placed : Settled v (placeAmpIfCounting k v) ∧ (placeAmpIfCounting k v).mc = v.mc ∧
      (placeAmpIfCounting k v).move = v.move := by
    unfold placeAmpIfCounting; split
    · rw [placeConfirm_eq]
      exact ⟨⟨fun _ => rfl, rfl, rfl, fun _ => rfl, fun _ => id⟩, rfl, rfl⟩
    · exact ⟨⟨fun _ => rfl, rfl, rfl, fun _ => rfl, fun _ => id⟩, rfl, rfl⟩
  generalize placeAmpIfCounting k v = w at placed
  obtain ⟨placed, mc, move⟩ := placed
  have active : w.mc.mode = .active := by rw [mc]; exact ha
  have waits : w.move ≠ some [] := by rw [move]; exact hm
  have stands : Stands w (afterResult m w) := afterResult_activeStands active waits
  exact ⟨fun j => (amp_congr stands.amps j).trans (placed.amp j), stands.co.trans placed.co, stands.faults.trans placed.faults,
    fun n => (line_congr stands.lines n).trans (placed.line n),
    fun x hx => (afterResult_unasked waits ⟨by rw [active]; decide, placed.verify x hx⟩).2⟩

end Sys2Proof.Machine
end

section
/-! PROOFS. The confirmed conditions of an amplifier as next states, by the state of the amplifier (R78 to R81). -/

namespace Sys2Proof.Machine

variable {s t u v w f : State} {d j k x z : AmpNo} {o : Operation} {e : CoEntry} {y : Amp} {arr : Arrive} {n : LineNo}

/-! ### One amplifier record written -/

/-- `u` is `s` with `y` as the record of amplifier `k` and the fault table of `f`, as far as the blocks see it. -/
structure Written (k : AmpNo) (y : Amp) (f s u : State) : Prop where
  own : u.amp k = y
  others : ∀ j, j ≠ k → u.amp j = s.amp j
  lines : u.lines = s.lines
  co : u.co = s.co
  mc : u.mc = s.mc
  table : SameTable f u

namespace Written

theorem self (s : State) (k : AmpNo) : Written k (s.amp k) s s s := ⟨rfl, fun _ _ => rfl, rfl, rfl, rfl, .refl s⟩

theorem setAmp (h : Written k y f s u) (a : Amp) : Written k a f s (u.setAmp k a) :=
  ⟨amp_setAmp_same u k a, fun j hj => (amp_setAmp_ne u k j a hj).trans (h.others j hj), h.lines, h.co, h.mc,
    h.table.trans ⟨rfl, rfl, rfl⟩⟩

theorem of_table (h : Written k y s s u) (same : SameButTable u v) (table : SameTable f v) : Written k y f s v :=
  ⟨(amp_congr same.amps k).trans h.own, fun j hj => (amp_congr same.amps j).trans (h.others j hj), same.lines.trans h.lines,
    same.co.trans h.co, same.mc.trans h.mc, table⟩

/-- A confirmed condition reported to the fault table (R78, R79, R81). -/
theorem raised (h : Written k y s s u) (key : FaultKey) (snap : Option Snapshot) :
    Written k y (raise key snap s) s (raise key snap u) := h.of_table (raise_same u key snap) (raise_table _ _ h.table)

theorem cleared (h : Written k y s s u) (key : FaultKey) (snap : Option Snapshot) :
    Written k y (clear key snap s) s (clear key snap u) := h.of_table (clear_same u key snap) (clear_table _ _ h.table)

theorem setAmpState (h : Written k y f s u) {st : AmpState} (hne : y.state ≠ st) :
    Written k { y with state := st, stamp := y.stamp + 1 } f s (setAmpState k st u) := by
  have set : Machine.setAmpState k st u = u.setAmp k { y with state := st, stamp := y.stamp + 1 } := by
    unfold Machine.setAmpState
    dsimp only
    rw [h.own, if_neg hne]
  rw [set]
  exact h.setAmp _

/-- The pool stands where the record keeps its role and its carrying amplifier, and is FREE where it was. -/
theorem pool (h : Written k y f s u) (hr : y.cfg.role = (s.amp k).cfg.role) (hc : y.carrying = (s.amp k).carrying)
    (hf : y.state = .free ↔ (s.amp k).state = .free) : PoolStands s u := fun j => by
  by_cases hj : j = k
  · rw [hj, h.own]; exact ⟨hr, hc, hf⟩
  · rw [h.others j hj]; exact ⟨rfl, rfl, .rfl⟩

theorem runs (h : Written k y f s u) : u.runs = s.runs := by rw [State.runs, h.mc, State.runs]

theorem emergency (h : Written k y f s u) : u.emergency = s.emergency := by rw [State.emergency, h.mc, State.emergency]

theorem waits (h : Written k y f s u) (x z : AmpNo) : u.moveStarts x z = s.moveStarts x z := moveStarts_congr h.lines x z

end Written

/-- What a reading's debounce step leaves of a record: all that the changeover unit reads (R75, R76). -/
structure Amp.JudgedTo (x y : Amp) : Prop where
  cfg : y.cfg = x.cfg
  state : y.state = x.state
  stamp : y.stamp = x.stamp
  coveredAmp : y.coveredAmp = x.coveredAmp
  carrying : y.carrying = x.carrying

theorem Amp.judgedTo (a : Amp) (ac : Code) (prot : Bool) : a.JudgedTo (a.judged ac prot) := ⟨rfl, rfl, rfl, rfl, rfl⟩

/-! ### SUSPECT (R77) -/

/-- The record of a duty amplifier after a debounce step that confirms nothing (R77). -/
def Amp.suspected (y : Amp) : Amp :=
  if y.state = .healthy ∧ y.candidate = some .fail then { y with state := .suspect, stamp := y.stamp + 1 }
  else if y.state = .suspect ∧ y.count = 0 then { y with state := .healthy, stamp := y.stamp + 1 }
  else y

theorem Written.stepSuspect (h : Written k y f s u) : Written k y.suspected f s (stepSuspect k u) := by
  unfold Machine.stepSuspect Amp.suspected
  dsimp only
  rw [h.own]
  split
  · next hs => exact h.setAmpState (by rw [hs.1]; decide)
  · split
    · next hs => exact h.setAmpState (by rw [hs.1]; decide)
    · exact h

/-! ### The grant of the one entry that waits (R91, R92) -/

theorem grantCover_current (hx : (s.amp x).state = .free) (hne : e.duty ≠ x)
    (h : (s.line n).current = (s.amp e.duty).carrying) : ((grantCover id e x s).line n).current = x := by
  have begun := coverBegun_parts e hx
  rw [grantCover_eq]
  generalize coverBegun e x s = v at begun
  have after : ∀ (o : Operation) (w : State), (afterGrantMove id o w).lines = w.lines := fun o w => by
    unfold afterGrantMove beginVerify; split
    · rw [placeVerify_id]; rfl
    · rfl
  rw [line_congr (after _ _)]
  exact current_moveLines (s := v) x (by rw [line_congr begun.lines, begun.others _ hne]; exact h)

/-- A grant attempt on a queue of one COVER entry, with a standby chosen for it and a move that starts a relay operation. -/
theorem grantAttempt_one (hq : s.co.queue = [e]) (hop : s.co.op = none) (hr : s.runs = true)
    (ho : s.emergency = false ∨ e.origin = .auto) (hk : e.kind = .cover) (hx : s.chosenStandby e.duty = some x)
    (hne : e.duty ≠ x) (hm : s.moveStarts (s.amp e.duty).carrying x = true) :
    ∀ v, v = grantAttempt id s → v.co = { s.co with queue := [], op := some (e.covering x) } ∧
      v.amp e.duty = { s.amp e.duty with carrying := x } ∧
      ((v.amp x).state = .busy ∧ (v.amp x).coveredAmp = some e.duty) ∧ v.faults = (clear (.noCover e.duty) none s).faults ∧
      ∀ n, (s.line n).current = (s.amp e.duty).carrying → (v.line n).current = x := by
  rintro v rfl
  obtain ⟨co, standby, duty, faults⟩ :=
    grantAttempt_cover (arr := id) (pre := []) (rest := []) hq hop hr (by simp) ho (by simp) hx hk hm hne
  have serves : grantAttempt id s = grantCover id e x s := by
    rw [grantAttempt_serves id (pre := []) (rest := []) hq hop hr (by simp) (qualifies_of ho (.inr ⟨x, hx⟩)), grantEntry, hk]
    dsimp only
    rw [hx]
  refine ⟨co, duty, by rw [standby]; exact ⟨rfl, rfl⟩, faults, fun n hn => ?_⟩
  rw [serves]
  exact grantCover_current (chosen_free hx) hne hn

/-! ### A duty amplifier fails (R78) -/

theorem confirmFail_duty (snap : Option Snapshot) (h : (s.amp k).cfg.role = .duty) :
    confirmFail arr k snap s = dutyFails arr k (raise (.ampFail k) snap s) := by
  unfold confirmFail
  dsimp only
  rw [amp_congr (raise_same s _ _).amps, h]

theorem dutyFails_well (h : (s.amp k).state = .healthy ∨ (s.amp k).state = .suspect) :
    dutyFails arr k s = askAutoCover arr k none (setAmpState k .failed s) := by
  unfold dutyFails
  obtain h | h := h <;> rw [h]

theorem dutyFails_relieved (h : (s.amp k).state = .relieved) : dutyFails arr k s = setAmpState k .covered s := by
  unfold dutyFails
  rw [h]

theorem dutyFails_covered (h : (s.amp k).state = .covered) : dutyFails arr k s = s := by
  unfold dutyFails
  rw [h]

theorem dutyFails_returning (h : (s.amp k).state = .failed) (he : s.co.entryOf k = some e) (hk : e.kind = .returnLines) :
    dutyFails arr k s = afterRequest arr k (replaceEntry { e with kind := .cover, origin := .auto } s) := by
  unfold dutyFails
  rw [h]
  dsimp only
  rw [he]
  exact if_pos hk

/-- An amplifier without an entry, and not operated on, joins as an AUTO COVER with a new sequence (R89). -/
theorem askAutoCover_fresh (d : AmpNo) (hq : s.co.queue = []) (hop : s.co.op = none) : askAutoCover arr d none s =
    grantAttempt arr (rejoinAutoCover d s.co.seqCounter none { s with co := s.co.sequenced none }) := by
  have free : s.co.operatesOn d = false := by simp [Changeover.operatesOn, hop]
  have fresh : s.co.entryOf d = none := by simp [Changeover.entryOf, hq]
  unfold askAutoCover
  rw [free, fresh]
  rfl

section Asks
variable (h : Written k y f s w) (pool : PoolStands s w)
include h pool

theorem cover_asked_busy (ho : s.co.op = some o) : ∀ v, v = askAutoCover id k none w →
    (∀ j, j ≠ k → v.amp j = s.amp j) ∧ v.amp k = y ∧
    (o.duty = k → v.co = { s.co with op := some { o with origin := .auto } } ∧ v.faults = f.faults) ∧
    (o.duty ≠ k → v.faults = (if s.chosenStandby k = none then raise (.noCover k) none f else f).faults ∧
      ((∀ z ∈ s.co.queue, z.duty ≠ k) → v.co = { s.co with
        seqCounter := s.co.seqCounter + 1
        queue := insertEntry ⟨k, .cover, .auto, none, s.co.seqCounter⟩ s.co.queue }) ∧
      ∀ z, s.co.queue.find? (fun z => z.duty = k) = some z → v.co = { s.co with
        queue := insertEntry { z with kind := .cover, origin := .auto } (s.co.queue.filter fun z => z.duty ≠ k) }) := by
  rintro v rfl
  obtain ⟨amps, operated, faults, joins, replaces⟩ := askAutoCover_busy id k none (s := w) (by rw [h.co]; exact ho)
  rw [h.co] at operated joins replaces
  refine ⟨fun j hj => (amp_congr amps j).trans (h.others j hj), (amp_congr amps k).trans h.own, fun hd => ?_, fun hd => ?_⟩
  · obtain ⟨co, faults⟩ := operated hd
    exact ⟨co, faults.trans h.table.faults⟩
  · exact ⟨(faults hd).trans (noCoverRaised_faults h.table (pool.chosen k)), joins hd, replaces hd⟩

theorem cover_asked_waits (hop : s.co.op = none) (hq : s.co.queue = []) (hc : s.chosenStandby k = none) :
    ∀ v, v = askAutoCover id k none w → v.amp k = y ∧ v.faults = (raise (.noCover k) none f).faults ∧
      v.co = { s.co with seqCounter := s.co.seqCounter + 1, queue := [⟨k, .cover, .auto, none, s.co.seqCounter⟩] } := by
  rintro v rfl
  rw [askAutoCover_fresh k (by rw [h.co]; exact hq) (by rw [h.co]; exact hop)]
  have queue : ({ w with co := w.co.sequenced none } : State).co.queue = [] := (congrArg Changeover.queue h.co).trans hq
  obtain ⟨co, amps, faults⟩ := rejoined_waits w.co.seqCounter none id (v := { w with co := w.co.sequenced none })
    (fun e he => by rw [queue] at he; cases he) ((pool.chosen k).trans hc) _ rfl
  have table : SameTable f { w with co := w.co.sequenced none } := ⟨h.table.faults, h.table.listeners, h.table.round⟩
  refine ⟨(amp_congr amps k).trans h.own, faults.trans (raise_table _ _ table).faults, ?_⟩
  rw [co, queue]
  show ({ w.co.sequenced none with queue := _ } : Changeover) = _
  rw [h.co]
  rfl

theorem cover_asked_served (hop : s.co.op = none) (hq : s.co.queue = []) (hr : s.runs = true)
    (hz : s.chosenStandby k = some z) (hne : k ≠ z) (hm : s.moveStarts y.carrying z = true) :
    ∀ v, v = askAutoCover id k none w →
      v.co = { s.co with
        seqCounter := s.co.seqCounter + 1, op := some ⟨.cover, k, z, .auto, none, s.co.seqCounter, none, .moving⟩ } ∧
      v.amp k = { y with carrying := z } ∧ (v.amp z).state = .busy ∧ (v.amp z).coveredAmp = some k ∧
      ∀ n, (s.line n).current = y.carrying → (v.line n).current = z := by
  rintro v rfl
  have counted : w.co.sequenced none = { s.co with seqCounter := s.co.seqCounter + 1 } := by rw [h.co]; rfl
  have number : w.co.seqCounter = s.co.seqCounter := by rw [h.co]
  rw [askAutoCover_fresh k (by rw [h.co]; exact hq) (by rw [h.co]; exact hop), counted, number]
  have queue : insertEntry ⟨k, .cover, .auto, none, s.co.seqCounter⟩ s.co.queue =
      [⟨k, .cover, .auto, none, s.co.seqCounter⟩] := by rw [hq]; rfl
  obtain ⟨u, hu⟩ : ∃ u : State, u = { w with co := { s.co with seqCounter := s.co.seqCounter + 1 } } := ⟨_, rfl⟩
  have amps : u.amps = w.amps := by rw [hu]
  have runs : u.runs = s.runs := by rw [hu]; exact h.runs
  have lines : u.lines = s.lines := by rw [hu]; exact h.lines
  have co : u.co = { s.co with seqCounter := s.co.seqCounter + 1 } := by rw [hu]
  have own : u.amp k = y := (amp_congr amps k).trans h.own
  have chosen : u.chosenStandby k = some z := ((pool.trans (.of_amps amps)).chosen k).trans hz
  rw [← hu, rejoinAutoCover_served chosen]
  clear hu
  obtain ⟨p, hp⟩ : ∃ p, p = joinEntry ⟨k, .cover, .auto, none, s.co.seqCounter⟩ u := ⟨_, rfl⟩
  have amps' : p.amps = u.amps := by rw [hp]; rfl
  have own' : p.amp k = y := (amp_congr amps' k).trans own
  have chosen' : p.chosenStandby k = some z := ((PoolStands.of_amps amps').chosen k).trans chosen
  have lines' : p.lines = s.lines := by rw [hp]; exact lines
  have co' : p.co = { s.co with
      seqCounter := s.co.seqCounter + 1, queue := [⟨k, .cover, .auto, none, s.co.seqCounter⟩] } := by
    rw [hp, joinEntry, co, ← queue]
  obtain ⟨pco, duty, ⟨busy, covers⟩, -, current⟩ := grantAttempt_one (x := z) (s := p)
    (e := ⟨k, .cover, .auto, none, s.co.seqCounter⟩) (by rw [co']) (by rw [co']; exact hop)
    (by rw [hp]; exact runs.trans hr) (.inr rfl) rfl chosen' hne (by rw [own', moveStarts_congr lines']; exact hm) _ rfl
  rw [← hp]
  refine ⟨?_, ?_, busy, covers, fun n hn => current n ?_⟩
  · rw [pco, co', ← hq]
    rfl
  · rw [duty, own']
  · rw [line_congr lines', own']; exact hn

end Asks

end Sys2Proof.Machine
end

section
/-! PROOFS. A standby that fails, and an amplifier that recovers, as next states (R79 to R81, R96). -/

namespace Sys2Proof.Machine

variable {s t u v w f : State} {d j k x z : AmpNo} {o : Operation} {e : CoEntry} {y : Amp} {arr : Arrive} {n : LineNo}

/-! ### A standby fails (R79, R80, R96) -/

theorem confirmFail_standby (snap : Option Snapshot) (h : (s.amp k).cfg.role = .standby) :
    confirmFail arr k snap s = standbyFails arr k (raise (.ampFail k) snap s) := by
  unfold confirmFail
  dsimp only
  rw [amp_congr (raise_same s _ _).amps, h]

/-- The standby FAULTY and without the amplifier it covered (R79). -/
def faulted (k : AmpNo) (s : State) : State := dropCovered k (setAmpState k .faulty s)

/-- The record of a standby whose FAIL is confirmed (R79). -/
def Amp.faulted (y : Amp) : Amp :=
  { y with state := .faulty, stamp := if y.state = .faulty then y.stamp else y.stamp + 1, coveredAmp := none }

theorem Amp.faulted_eq (h : y.state ≠ .faulty) :
    y.faulted = { y with state := .faulty, stamp := y.stamp + 1, coveredAmp := none } := by
  rw [Amp.faulted, if_neg h]

theorem Written.dropCovered (h : Written k y f s u) : Written k { y with coveredAmp := none } f s (dropCovered k u) := by
  rw [Machine.dropCovered, h.own]
  exact h.setAmp _

theorem Written.dropCover (h : Written k y f s u) :
    Written k { y with coveringStandby := none, coverSeq := none } f s (dropCover k u) := by
  rw [Machine.dropCover, h.own]
  exact h.setAmp _

theorem Written.faulted (h : Written k y f s u) : Written k y.faulted f s (faulted k u) := by
  by_cases hs : y.state = .faulty
  · have stays : Machine.setAmpState k .faulty u = u := by
      unfold Machine.setAmpState
      dsimp only
      rw [h.own, if_pos hs]
    have same : y.faulted = { y with coveredAmp := none } := by rw [Amp.faulted, if_pos hs, ← hs]
    rw [same, Machine.faulted, stays]
    exact h.dropCovered
  · rw [Amp.faulted_eq hs]
    exact (h.setAmpState hs).dropCovered

theorem standbyFails_alone (h : (s.amp k).state ≠ .busy ∨ (s.amp k).coveredAmp = none) :
    standbyFails arr k s = faulted k s := by
  have none : (if (s.amp k).state = .busy then (s.amp k).coveredAmp else none) = none := by
    obtain h | h := h
    · rw [if_neg h]
    · rw [h, ite_self]
  unfold standbyFails
  simp only [none]
  rfl

theorem standbyFails_busy (hb : (s.amp k).state = .busy) (hj : (s.amp k).coveredAmp = some j) :
    standbyFails arr k s = match (faulted k s).coverInFlight k with
      | some o => coverLostInFlight arr o (faulted k s)
      | none => loseCover arr j (faulted k s) := by
  cases hc : (faulted k s).coverInFlight k with
  | none | some o =>
    rw [faulted] at hc
    simp only [standbyFails, hb, hj, ↓reduceIte, hc]
    rfl

theorem coverInFlight_some (h : s.coverInFlight k = some o) : s.co.op = some o ∧ o.kind = .cover ∧ o.standby = k := by
  obtain ⟨ho, p⟩ := Option.filter_eq_some_iff.mp h
  simp only [Bool.and_eq_true, decide_eq_true_eq] at p
  exact ⟨ho, p.1⟩

theorem coverInFlight_of (ho : s.co.op = some o) (hk : o.kind = .cover) (hs : o.standby = k) (hp : o.phase ≠ .movingBack) :
    s.coverInFlight k = some o := by
  simp [State.coverInFlight, ho, hk, hs, hp]

theorem coverInFlight_none (ho : s.co.op = some o) (h : ¬(o.kind = .cover ∧ o.standby = k ∧ o.phase ≠ .movingBack)) :
    s.coverInFlight k = none := by
  simpa [State.coverInFlight, ho] using h

/-- The loss of its cover by an amplifier leaves a FAULTY standby in its place (R80). -/
theorem loseCover_serves (d : AmpNo) (h : (s.amp k).state = .faulty) : Serves k s (loseCover id d s) := by
  have dropped := Serves.dropCover s d k
  have changed : ∀ st : AmpState, (s.amp d).state ≠ .faulty → Serves k s (setAmpState d st (dropCover d s)) := fun st hd =>
    dropped.trans (.setAmpState _ st fun e => hd (e ▸ h))
  have inPool : ∀ {w : State}, Serves k s w → (w.amp k).state ≠ .free := fun g => by rw [g.1, h]; decide
  unfold loseCover
  dsimp only
  split
  · next covered =>
    have g := changed .failed (by rw [covered]; decide)
    exact g.trans (.askAutoCover d _ (inPool g))
  · next relieved =>
    have g := changed .healthy (by rw [relieved]; decide)
    exact g.trans (.askAutoReturn d _ (inPool g))
  · exact dropped

/-- A standby whose FAIL is confirmed stays FAULTY through all that follows. -/
theorem standbyFails_serves (ha : s.mc.mode = .active) (h : ((faulted k s).amp k).state = .faulty) :
    Serves k (faulted k s) (standbyFails id k s) := by
  have active : (faulted k s).mc.mode = .active := (congrArg ModeControl.mode (setAmpState_mc s k .faulty)).trans ha
  by_cases hb : (s.amp k).state = .busy
  · cases hj : (s.amp k).coveredAmp with
    | none => rw [standbyFails_alone (.inr hj)]; exact .of_amps rfl
    | some j =>
      rw [standbyFails_busy hb hj]
      split
      · next o ho =>
        obtain ⟨op, kind, -⟩ := coverInFlight_some ho
        obtain ⟨c, amp, -⟩ := coverLostInFlight_amp op kind active h
        exact .of_carrying amp
      · exact loseCover_serves j h
  · rw [standbyFails_alone (.inl hb)]
    exact .of_amps rfl

/-- The amplifier that loses its cover (R80). -/
theorem Written.coverLost (h : Written k y f s u) (hj : j ≠ k) {st : AmpState} (hne : (s.amp j).state ≠ st) :
    Written j { s.amp j with state := st, stamp := (s.amp j).stamp + 1, coveringStandby := none, coverSeq := none } u u
      (Machine.setAmpState j st (Machine.dropCover j u)) := by
  have dropped := (Written.self u j).dropCover
  rw [h.others j hj] at dropped
  exact dropped.setAmpState hne

theorem loseCover_covered (h : (s.amp j).state = .covered) :
    loseCover arr j s = askAutoCover arr j (s.amp j).coverSeq (setAmpState j .failed (dropCover j s)) := by
  unfold loseCover
  dsimp only
  rw [h]

theorem loseCover_relieved (h : (s.amp j).state = .relieved) :
    loseCover arr j s = askAutoReturn arr j (s.amp j).coverSeq (setAmpState j .healthy (dropCover j s)) := by
  unfold loseCover
  dsimp only
  rw [h]

section Lost
variable (h : Written k y f s u) (hj : j ≠ k) (ho : s.co.op = some o) {q : Word}
  (hq : (s.amp j).coverSeq = some q)
include h hj ho hq

/-- A COVERED amplifier without its cover, as the statement says it (R80, R89, R90). -/
theorem covered_loses (hpool : PoolStands s u) (hs : (s.amp j).state = .covered) : ∀ v, v = loseCover id j u →
    v.amp j = { s.amp j with
      state := .failed, stamp := (s.amp j).stamp + 1, coveringStandby := none, coverSeq := none } ∧
    (o.duty = j → v.faults = f.faults ∧ v.co = { s.co with op := some { o with origin := .auto } }) ∧
    (o.duty ≠ j → v.faults = (if s.chosenStandby j = none then raise (.noCover j) none f else f).faults ∧
      ((∀ z ∈ s.co.queue, z.duty ≠ j) → v.co = { s.co with queue := insertEntry ⟨j, .cover, .auto, none, q⟩ s.co.queue }) ∧
      ∀ z, s.co.queue.find? (fun z => z.duty = j) = some z → v.co = { s.co with
        queue := insertEntry { z with kind := .cover, origin := .auto } (s.co.queue.filter fun z => z.duty ≠ j) }) := by
  rintro v rfl
  have amp := h.others j hj
  rw [loseCover_covered (by rw [amp]; exact hs), amp, hq]
  have lost := h.coverLost hj (st := .failed) (by rw [hs]; decide)
  have pool : PoolStands s (setAmpState j .failed (dropCover j u)) := hpool.trans
    ((PoolStands.dropCover u j).trans (.setAmpState _ (by decide)
      (by show ((dropCover j u).amp j).state ≠ .free; rw [dropCover, amp_setAmp_same, amp, hs]; decide)))
  generalize setAmpState j .failed (dropCover j u) = w at lost pool
  have co : w.co = s.co := lost.co.trans h.co
  obtain ⟨amps, operated, faults, joins, replaces⟩ := askAutoCover_busy id j (some q) (s := w) (by rw [co]; exact ho)
  rw [co] at operated joins replaces
  refine ⟨(amp_congr amps j).trans lost.own, fun hd => ?_, fun hd => ?_⟩
  · obtain ⟨co, faults⟩ := operated hd
    exact ⟨faults.trans (h.table.trans lost.table).faults, co⟩
  · exact ⟨(faults hd).trans (noCoverRaised_faults (h.table.trans lost.table) (pool.chosen j)), joins hd, replaces hd⟩

/-- A RELIEVED amplifier without its cover, as the statement says it (R80, R89). -/
theorem relieved_loses (hs : (s.amp j).state = .relieved) : ∀ v, v = loseCover id j u →
    v.amp j = { s.amp j with
      state := .healthy, stamp := (s.amp j).stamp + 1, coveringStandby := none, coverSeq := none } ∧
    v.faults = f.faults ∧ (o.duty = j → v.co = s.co) ∧
    (o.duty ≠ j → (∀ z ∈ s.co.queue, z.duty ≠ j) →
      v.co = { s.co with queue := insertEntry ⟨j, .returnLines, .auto, none, q⟩ s.co.queue }) ∧
    ∀ z, s.co.queue.find? (fun z => z.duty = j) = some z → v.co = s.co := by
  rintro v rfl
  have amp := h.others j hj
  rw [loseCover_relieved (by rw [amp]; exact hs), amp, hq]
  have lost := h.coverLost hj (st := .healthy) (by rw [hs]; decide)
  generalize setAmpState j .healthy (dropCover j u) = w at lost
  have co : w.co = s.co := lost.co.trans h.co
  obtain ⟨amps, faults, operated, joins, stands⟩ := askAutoReturn_busy id j (some q) (s := w) (by rw [co]; exact ho)
  rw [co] at operated joins stands
  exact ⟨(amp_congr amps j).trans lost.own, faults.trans (h.table.trans lost.table).faults, operated, joins, stands⟩

end Lost

/-! ### An amplifier recovers (R81) -/

theorem confirmNormal_faulty (snap : Option Snapshot) (h : (s.amp k).state = .faulty) :
    confirmNormal arr k snap s = grantAttempt arr (setAmpState k .free (clear (.ampFail k) snap s)) := by
  unfold confirmNormal
  dsimp only
  rw [amp_congr (clear_same s _ _).amps, h]

theorem confirmNormal_covered (snap : Option Snapshot) (h : (s.amp k).state = .covered) :
    confirmNormal arr k snap s = clear (.ampFail k) snap s := by
  unfold confirmNormal
  dsimp only
  rw [amp_congr (clear_same s _ _).amps, h]

section Failed
variable (snap : Option Snapshot) (h : (s.amp k).state = .failed) (ho : s.co.op = some o)
include h ho

theorem confirmNormal_operated (hd : o.duty = k) : confirmNormal arr k snap s = clear (.ampFail k) snap s := by
  have same := clear_same s (.ampFail k) snap
  have operates : (clear (.ampFail k) snap s).co.operatesOn k = true := by
    rw [same.co]
    simp [Changeover.operatesOn, ho, hd]
  unfold confirmNormal
  dsimp only
  rw [amp_congr same.amps, h, operates]
  rfl

theorem confirmNormal_queued (hd : o.duty ≠ k) (he : s.co.entryOf k = some e) (hk : e.kind = .cover) :
    confirmNormal arr k snap s = recoverQueued arr k e (clear (.ampFail k) snap s) := by
  have same := clear_same s (.ampFail k) snap
  have free : (clear (.ampFail k) snap s).co.operatesOn k = false := by
    rw [same.co]
    simp [Changeover.operatesOn, ho, hd]
  unfold confirmNormal
  dsimp only
  rw [amp_congr same.amps, h, free, same.co, he]
  exact if_pos hk

end Failed

/-- The entry that a recovered amplifier keeps: its own cover again MANUAL, or none, or a return of its lines (R81). -/
def recoveredEntry (k : AmpNo) (e : CoEntry) (s : State) : State :=
  if (s.amp k).carrying = k then
    if e.requester = none then removeEntry k (setAmpState k .healthy s)
    else replaceEntry { e with origin := .manual } (setAmpState k .healthy s)
  else replaceEntry { e with kind := .returnLines, origin := .auto } s

theorem recoverQueued_eq (k : AmpNo) (e : CoEntry) (s : State) :
    recoverQueued arr k e s = afterRequest arr k (clear (.noCover k) none (recoveredEntry k e s)) := by
  unfold recoverQueued recoveredEntry
  cases e.requester <;> rfl

/-- No AUTO COVER of a recovered amplifier is left, so no NO_COVER is raised (R81, R90). -/
theorem recoveredEntry_quiet (he : s.co.entryOf k = some e) :
    ∀ z, (recoveredEntry k e s).co.entryOf k = some z → z.kind = .cover → z.origin ≠ .auto := by
  obtain ⟨-, rfl⟩ := Changeover.entryOf_some he
  have replaced : ∀ (a : CoEntry) (w : State), a.duty = e.duty → (replaceEntry a w).co.entryOf e.duty = some a :=
    fun a w ha => by
      have entry := entryOf_joinEntry (s := removeEntry a.duty w) (e := a) (duty_of_mem_removeEntry a.duty w)
      rw [ha] at entry
      rw [replaceEntry, ha]
      exact entry
  intro z hz kind origin
  unfold recoveredEntry at hz
  split at hz
  · split at hz
    · cases (entryOf_removeEntry e.duty _).symm.trans hz
    · rw [replaced { e with origin := .manual } _ rfl] at hz
      obtain rfl := Option.some.inj hz
      cases origin
  · rw [replaced { e with kind := .returnLines, origin := .auto } _ rfl] at hz
    obtain rfl := Option.some.inj hz
    cases kind

/-- The entry and the record of a FAILED amplifier that recovers (R81). -/
structure EntryRecovered (k : AmpNo) (e : CoEntry) (y : Amp) (f s w : State) : Prop where
  op : w.co.op = s.co.op
  table : SameTable f w
  home : y.carrying = k → ∀ others, others = s.co.queue.filter (fun z => z.duty ≠ k) →
    w.amp k = { y with state := .healthy, stamp := y.stamp + 1 } ∧ w.co = { s.co with
      queue := if e.requester = none then others else insertEntry { e with origin := .manual } others }
  away : y.carrying ≠ k → ∀ others, others = s.co.queue.filter (fun z => z.duty ≠ k) →
    w.amp k = y ∧ w.co = { s.co with queue := insertEntry { e with kind := .returnLines, origin := .auto } others }

theorem recoveredEntry_parts (h : Written k y f s u) (hs : y.state = .failed) (he : s.co.entryOf k = some e) :
    EntryRecovered k e y f s (recoveredEntry k e u) := by
  obtain ⟨-, rfl⟩ := Changeover.entryOf_some he
  have healthy := h.setAmpState (st := .healthy) (by rw [hs]; decide)
  unfold recoveredEntry
  rw [h.own]
  by_cases hc : y.carrying = e.duty
  · rw [if_pos hc]
    by_cases hr : e.requester = none
    · rw [if_pos hr]
      refine ⟨(congrArg Changeover.op healthy.co :), healthy.table.trans ⟨rfl, rfl, rfl⟩, ?_, fun h => absurd hc h⟩
      rintro - others rfl
      exact ⟨healthy.own, by rw [removeEntry, healthy.co, if_pos hr]⟩
    · rw [if_neg hr]
      refine ⟨(congrArg Changeover.op healthy.co :), healthy.table.trans ⟨rfl, rfl, rfl⟩, ?_, fun h => absurd hc h⟩
      rintro - others rfl
      exact ⟨healthy.own, by rw [replaceEntry, joinEntry, removeEntry, healthy.co, if_neg hr]⟩
  · rw [if_neg hc]
    refine ⟨(congrArg Changeover.op h.co :), h.table.trans ⟨rfl, rfl, rfl⟩, fun h => absurd h hc, ?_⟩
    rintro - others rfl
    exact ⟨h.own, by rw [replaceEntry, joinEntry, removeEntry, h.co]⟩

/-- A FAILED amplifier recovers with a queued COVER, while another operation is in flight, as the statement says it (R81). -/
theorem recoverQueued_busy (h : Written k y f s u) (hs : y.state = .failed) (ho : s.co.op = some o)
    (he : s.co.entryOf k = some e) : ∀ v, v = recoverQueued id k e u →
      v.faults = (clear (.noCover k) none f).faults ∧ ∀ others, others = s.co.queue.filter (fun z => z.duty ≠ k) →
      (y.carrying = k → v.amp k = { y with state := .healthy, stamp := y.stamp + 1 } ∧ v.co = { s.co with
        queue := if e.requester = none then others else insertEntry { e with origin := .manual } others }) ∧
      (y.carrying ≠ k → v.amp k = y ∧
        v.co = { s.co with queue := insertEntry { e with kind := .returnLines, origin := .auto } others }) := by
  rintro v rfl
  have quiet := recoveredEntry_quiet (s := u) (by rw [h.co]; exact he)
  obtain ⟨op, table, home, away⟩ := recoveredEntry_parts h hs he
  rw [recoverQueued_eq]
  generalize recoveredEntry k e u = w at *
  have same := clear_same w (.noCover k) none
  rw [afterRequest_busy id k (by rw [same.co, op, ho]; rfl), raiseNoCover_quiet (by rw [same.co]; exact quiet), same.co,
    amp_congr same.amps]
  exact ⟨(clear_table _ _ table).faults, fun others h => ⟨fun hc => home hc others h, fun hc => away hc others h⟩⟩

end Sys2Proof.Machine
end

section
/-! PROOFS. AMP readings in ACTIVE (O27): the confirmed conditions as the statement says them, and what the completion leaves. -/

namespace Sys2Proof.Machine

variable {s t u v w f : State} {d j k x z : AmpNo} {o : Operation} {e : CoEntry} {y : Amp} {m : Measurement}

/-! ### A duty amplifier (R78) -/

section Duty
variable (h : Written k y f s u) (hy : (s.amp k).JudgedTo y)
include h hy

/-- A HEALTHY or SUSPECT amplifier fails (R78, R89, R90). -/
theorem dutyFails_asks (hr : s.runs = true) (hs : (s.amp k).state = .healthy ∨ (s.amp k).state = .suspect) :
    ∀ v, v = dutyFails id k u → (v.amp k).state = .failed ∧ (v.amp k).stamp = (s.amp k).stamp + 1 ∧
      ∀ w, w = (if s.chosenStandby k = none then raise (.noCover k) none f else f) →
      ∀ e, e = (⟨k, .cover, .auto, none, s.co.seqCounter⟩ : CoEntry) →
      (∀ o, s.co.op = some o → (∀ j, j ≠ k → v.amp j = s.amp j) ∧
        v.amp k = { y with state := .failed, stamp := (s.amp k).stamp + 1 } ∧
        (o.duty = k → v.co = { s.co with op := some { o with origin := .auto } } ∧ v.faults = f.faults) ∧
        (o.duty ≠ k → v.faults = w.faults ∧
          ((∀ z ∈ s.co.queue, z.duty ≠ k) →
            v.co = { s.co with seqCounter := s.co.seqCounter + 1, queue := insertEntry e s.co.queue }) ∧
          ∀ z, s.co.queue.find? (fun z => z.duty = k) = some z → v.co = { s.co with
            queue := insertEntry { z with kind := .cover, origin := .auto }
              (s.co.queue.filter fun z => z.duty ≠ k) })) ∧
      (s.co.op = none → s.co.queue = [] → s.chosenStandby k = none →
        v.amp k = { y with state := .failed, stamp := (s.amp k).stamp + 1 } ∧ v.faults = w.faults ∧
        v.co = { s.co with seqCounter := s.co.seqCounter + 1, queue := [e] }) ∧
      ∀ z, s.chosenStandby k = some z → s.co.op = none → s.co.queue = [] → s.moveStarts (s.amp k).carrying z = true →
        v.co = { s.co with
          seqCounter := s.co.seqCounter + 1
          op := some ⟨.cover, k, z, .auto, none, s.co.seqCounter, none, .moving⟩ } ∧
        v.amp k = { y with state := .failed, stamp := (s.amp k).stamp + 1, carrying := z } ∧
        (v.amp z).state = .busy ∧ (v.amp z).coveredAmp = some k ∧
        ∀ n, (s.line n).current = (s.amp k).carrying → (v.line n).current = z := by
  rintro v rfl
  rw [dutyFails_well (by rw [h.own, hy.state]; exact hs)]
  have inPool : (s.amp k).state ≠ .free := by obtain hs | hs := hs <;> rw [hs] <;> decide
  have failed := h.setAmpState (st := .failed) (by rw [hy.state]; obtain hs | hs := hs <;> rw [hs] <;> decide)
  rw [hy.stamp] at failed
  have pool := failed.pool (congrArg AmpConfig.role hy.cfg) hy.carrying (iff_of_false nofun inPool)
  generalize setAmpState k .failed u = p at failed pool
  have serves : Serves k p (askAutoCover id k none p) := .askAutoCover k none (by rw [failed.own]; nofun)
  refine ⟨by rw [serves.1, failed.own], by rw [serves.2.1, failed.own], ?_⟩
  rintro w rfl e rfl
  refine ⟨fun o ho => cover_asked_busy failed pool ho _ rfl, fun hop hq hc => ?_, fun z hz hop hq hm => ?_⟩
  · obtain ⟨own, faults, co⟩ := cover_asked_waits failed pool hop hq hc _ rfl
    rw [if_pos hc]
    exact ⟨own, faults, co⟩
  · have hne : k ≠ z := fun e => inPool (e ▸ chosen_free hz)
    rw [← hy.carrying] at hm ⊢
    exact cover_asked_served failed pool hop hq hr hz hne hm _ rfl

/-- A FAILED amplifier with a queued RETURN fails again (R78). -/
theorem dutyFails_coversAgain (hs : (s.amp k).state = .failed) (ho : s.co.op = some o)
    (hz : s.co.queue.find? (fun z => z.duty = k) = some e) (hk : e.kind = .returnLines) :
    ∀ v, v = dutyFails id k u → v.amp k = y ∧
      v.co = { s.co with
        queue := insertEntry { e with kind := .cover, origin := .auto } (s.co.queue.filter fun z => z.duty ≠ k) } ∧
      v.faults = (if s.chosenStandby k = none then raise (.noCover k) none f else f).faults := by
  rintro v rfl
  have entry : u.co.entryOf k = some e := by rw [h.co]; exact hz
  have pool := h.pool (congrArg AmpConfig.role hy.cfg) hy.carrying (by rw [hy.state])
  rw [dutyFails_returning (by rw [h.own, hy.state]; exact hs) entry hk,
    afterRequest_busy id k (by show u.co.op.isSome = true; rw [h.co, ho]; rfl)]
  obtain ⟨amps, co, faults⟩ := coverReplaces entry
  obtain ⟨-, duty⟩ := Changeover.entryOf_some entry
  refine ⟨(amp_congr amps k).trans h.own, ?_, ?_⟩
  · rw [co, removeEntry, h.co]
  · have table : SameTable f (removeEntry k u) := h.table.trans ⟨rfl, rfl, rfl⟩
    subst duty
    exact faults.trans (noCoverRaised_faults table (pool.chosen e.duty))

end Duty

/-! ### A standby (R79, R80, R96) -/

section Standby
variable (h : Written k y f s u)
include h

theorem standbyFails_faulty (ha : s.mc.mode = .active) : ∀ v, v = standbyFails id k u →
    (v.amp k).state = .faulty ∧ (v.amp k).coveredAmp = none ∧ (v.amp k).condition = y.condition := by
  rintro v rfl
  have own := h.faulted.own
  obtain ⟨state, -, covered, condition⟩ :=
    standbyFails_serves (s := u) (k := k) (by rw [h.mc]; exact ha) (by rw [own]; rfl)
  rw [state, covered, condition, own]
  exact ⟨rfl, rfl, rfl⟩

variable (hy : (s.amp k).JudgedTo y)
include hy

theorem standbyFails_freed (hs : (s.amp k).state = .free) : ∀ v, v = standbyFails id k u →
    v.amp k = { y with state := .faulty, stamp := (s.amp k).stamp + 1, coveredAmp := none } ∧
    (∀ j, j ≠ k → v.amp j = s.amp j) ∧ v.co = s.co ∧ v.faults = f.faults := by
  rintro v rfl
  rw [standbyFails_alone (.inl (by rw [h.own, hy.state, hs]; decide)), ← hy.stamp,
    ← Amp.faulted_eq (by rw [hy.state, hs]; decide)]
  exact ⟨h.faulted.own, h.faulted.others, h.faulted.co, h.faulted.table.faults⟩

section Busy
variable (hs : (s.amp k).state = .busy) (hc : (s.amp k).coveredAmp = some j) (hj : j ≠ k) (ho : s.co.op = some o)
include hs hc hj ho

/-- The standby of the cover in flight fails, and the cover is given up (R96). -/
theorem standbyFails_givesUp (ha : s.mc.mode = .active) (hk : o.kind = .cover) (hx : o.standby = k)
    (hp : o.phase ≠ .movingBack) (hd : o.duty = j) : ∀ v, v = standbyFails id k u →
    (s.moveStarts k j = true ∨ (∀ e ∈ s.co.queue, e.duty ≠ k) →
      v.amp k = { y with state := .faulty, stamp := (s.amp k).stamp + 1, coveredAmp := none }) ∧
    (s.moveStarts k j = true → v.faults = f.faults ∧ (v.amp j).carrying = j ∧
      v.co = { s.co with op := some { o with phase := .movingBack } } ∧
      (∀ n, (s.line n).current = k → (v.line n).current = j) ∧ .amp k ∉ v.chan.verify) := by
  rintro v rfl
  have faulty := h.faulted
  have op : (faulted k u).co.op = some o := by rw [faulty.co]; exact ho
  rw [standbyFails_busy (by rw [h.own, hy.state]; exact hs) (by rw [h.own, hy.coveredAmp]; exact hc),
    coverInFlight_of op hk hx hp]
  dsimp only
  rw [Amp.faulted_eq (by rw [hy.state, hs]; decide), hy.stamp] at faulty
  generalize faulted k u = p at faulty op
  have given := coverGivenUp_parts op
  have idle : s.moveStarts k j = true → coverLostInFlight id o p = coverGivenUp o p := fun hm =>
    reportMove_idle _ id (given.waits (by rw [hx, hd, faulty.waits]; exact hm))
  subst hd
  refine ⟨fun hm => ?_, fun hm => ?_⟩
  · obtain hm | none := hm
    · rw [idle hm, given.amp, if_neg hj.symm, faulty.own]
    · obtain ⟨c, amp, same⟩ := coverLostInFlight_amp (k := k) op hk (by rw [faulty.mc]; exact ha) (by rw [faulty.own])
      rw [amp, same hj (by rw [faulty.co]; exact none), faulty.own]
  · rw [idle hm]
    refine ⟨given.faults.trans faulty.table.faults, ?_, ?_, fun n hn => given.lines n ?_, hx ▸ given.verify⟩
    · rw [given.amp, if_pos rfl]
    · rw [given.co, faulty.co]
    · rw [line_congr faulty.lines, hx]; exact hn

/-- The standby of a cover that is over fails, and the amplifier it covers loses its cover (R80). -/
theorem standbyFails_uncovers {q : Word} (hq : (s.amp j).coverSeq = some q)
    (hl : ¬(o.kind = .cover ∧ o.standby = k ∧ o.phase ≠ .movingBack))
    (hst : (s.amp j).state = .covered ∨ (s.amp j).state = .relieved) : ∀ v, v = standbyFails id k u →
    v.amp j = { s.amp j with
      state := if (s.amp j).state = .covered then .failed else .healthy, stamp := (s.amp j).stamp + 1
      coveringStandby := none, coverSeq := none } ∧
    (o.duty = j → v.faults = f.faults ∧
      v.co = { s.co with op := some { o with origin := if (s.amp j).state = .covered then .auto else o.origin } }) ∧
    (o.duty ≠ j →
      v.faults = (if (s.amp j).state = .covered ∧ s.chosenStandby j = none then raise (.noCover j) none f
        else f).faults ∧
      (∀ e, e = (⟨j, if (s.amp j).state = .covered then .cover else .returnLines, .auto, none, q⟩ : CoEntry) →
        (∀ z ∈ s.co.queue, z.duty ≠ j) → v.co = { s.co with queue := insertEntry e s.co.queue }) ∧
      ∀ z, s.co.queue.find? (fun z => z.duty = j) = some z → v.co = (if (s.amp j).state = .covered then { s.co with
          queue := insertEntry { z with kind := .cover, origin := .auto } (s.co.queue.filter fun z => z.duty ≠ j) }
        else s.co)) := by
  rintro v rfl
  have faulty := h.faulted
  have op : (faulted k u).co.op = some o := by rw [faulty.co]; exact ho
  rw [standbyFails_busy (by rw [h.own, hy.state]; exact hs) (by rw [h.own, hy.coveredAmp]; exact hc),
    coverInFlight_none op hl]
  dsimp only
  have pool := faulty.pool (congrArg AmpConfig.role hy.cfg) hy.carrying (iff_of_false nofun (by rw [hs]; decide))
  obtain hst | hst := hst
  · obtain ⟨own, same, other⟩ := covered_loses faulty hj ho hq pool hst _ rfl
    simp only [hst, ↓reduceIte, true_and]
    refine ⟨own, same, fun hd => ?_⟩
    obtain ⟨faults, joins, replaces⟩ := other hd
    exact ⟨faults, fun e he => he ▸ joins, replaces⟩
  · obtain ⟨own, faults, same, joins, stands⟩ := relieved_loses faulty hj ho hq hst _ rfl
    simp only [hst, reduceCtorEq, ↓reduceIte, false_and]
    refine ⟨own, fun hd => ⟨faults, (same hd).trans ?_⟩, fun hd => ⟨faults, fun e he => he ▸ joins hd, stands⟩⟩
    rw [← ho]

end Busy

end Standby

/-! ### An amplifier that recovers (R81) -/

section Recovers
variable (h : Written k y f s u) (hy : (s.amp k).JudgedTo y) (hs : (s.amp k).state = .faulty)
include h hy hs

/-- A FAULTY standby becomes FREE (R81). -/
theorem Written.freed : Written k { y with state := .free, stamp := (s.amp k).stamp + 1 } f s
    (Machine.setAmpState k .free u) := by
  rw [← hy.stamp]
  exact h.setAmpState (by rw [hy.state, hs]; decide)

/-- A standby that becomes FREE is chosen where none was grantable and no duty amplifier is carried by it (R88). -/
theorem chosenStandby_freed (hr : (s.amp k).cfg.role = .standby) (hn : s.chosenStandby d = none)
    (hc : ∀ j, (s.amp j).cfg.role = .duty → (s.amp j).carrying ≠ k) :
    (setAmpState k .free u).chosenStandby d = some k := by
  have freed := h.freed hy hs
  generalize setAmpState k .free u = w at freed
  have alike : ∀ j, (w.amp j).cfg.role = (s.amp j).cfg.role ∧ (w.amp j).carrying = (s.amp j).carrying := fun j => by
    by_cases hj : j = k
    · rw [hj, freed.own]; exact ⟨congrArg AmpConfig.role hy.cfg, hy.carrying⟩
    · rw [freed.others j hj]; exact ⟨rfl, rfl⟩
  refine (chosenStandby_iff w d k).mpr ⟨?_, fun x hx => ?_⟩
  · rw [grantable_iff]
    simp only [alike, freed.own]
    exact ⟨(congrArg AmpConfig.role hy.cfg).trans hr, trivial, .inr hc⟩
  · have none := chosenStandby_none.mp hn x
    have stands := freed.others x hx.ne
    rw [Bool.eq_false_iff, ne_eq, grantable_iff] at none ⊢
    simpa only [alike, stands] using none

theorem confirmNormal_frees (hq : s.co.op.isSome ∨ s.co.queue = []) :
    ∀ v, v = grantAttempt id (setAmpState k .free u) → v.amp k = { y with state := .free, stamp := (s.amp k).stamp + 1 } ∧
      (∀ j, j ≠ k → v.amp j = s.amp j) ∧ v.co = s.co ∧ v.faults = f.faults := by
  rintro v rfl
  have freed := h.freed hy hs
  generalize setAmpState k .free u = w at freed
  rw [grantAttempt_none id w (by rw [freed.co]; exact hq.imp_right fun e x hx => by rw [e] at hx; cases hx)]
  exact ⟨freed.own, freed.others, freed.co, freed.table.faults⟩

/-- A standby that recovers is granted to the one COVER that waits (R81, R91, R92). -/
theorem confirmNormal_serves (hrun : s.runs = true) (hr : (s.amp k).cfg.role = .standby) (hop : s.co.op = none)
    (hhead : s.co.queue.head? = some e) (htail : s.co.queue.tail = []) (hk : e.kind = .cover)
    (ho : e.origin = .auto ∨ s.emergency = false) (hne : e.duty ≠ k) (hn : s.chosenStandby e.duty = none)
    (hc : ∀ j, (s.amp j).cfg.role = .duty → (s.amp j).carrying ≠ k)
    (hm : s.moveStarts (s.amp e.duty).carrying k = true) : ∀ v, v = grantAttempt id (setAmpState k .free u) →
      (v.amp k).state = .busy ∧ (v.amp k).coveredAmp = some e.duty ∧
      v.co = { s.co with queue := [], op := some ⟨.cover, e.duty, k, e.origin, e.requester, e.seq, none, .moving⟩ } ∧
      v.faults = (clear (.noCover e.duty) none f).faults := by
  rintro v rfl
  have queue : s.co.queue = [e] := by
    obtain ⟨rest, split⟩ := List.head?_eq_some_iff.mp hhead
    rw [split] at htail ⊢
    exact congrArg _ htail
  have freed := h.freed hy hs
  have chosen := chosenStandby_freed h hy hs hr hn hc
  generalize setAmpState k .free u = w at freed chosen
  obtain ⟨co, -, ⟨busy, covers⟩, faults, -⟩ := grantAttempt_one (s := w) (by rw [freed.co]; exact queue)
    (by rw [freed.co]; exact hop) (freed.runs.trans hrun) (ho.symm.imp_left freed.emergency.trans) hk chosen hne
    (by rw [freed.others _ hne, freed.waits]; exact hm) _ rfl
  exact ⟨busy, covers, by rw [co, freed.co]; rfl, faults.trans (clear_table _ _ freed.table).faults⟩

end Recovers

/-! ### The debounce step (R75 to R77) -/

/-- The debounce step as the statement writes it. -/
theorem stepCondition_eq (a : Amp) (ac : Code) (prot : Bool) : a.stepCondition ac prot = debounce a.condition a.candidate a.count
    (requiredCondition a.cfg) (if a.cfg.amin ≤ ac.val ∧ prot = false then .normal else .fail) := by
  simp [Amp.stepCondition, normalReading]

section Step
variable (snap : Option Snapshot) {b : Debounce Condition}

theorem ampStepped_still (h : b.changed = false) : ampStepped id k b snap s = stepSuspect k s := by simp [ampStepped, h]

theorem ampStepped_fail (h : b.changed = true) (hc : b.confirmed = .fail) :
    ampStepped id k b snap s = confirmFail id k snap s := by simp [ampStepped, h, hc]

theorem ampStepped_normal (h : b.changed = true) (hc : b.confirmed = .normal) :
    ampStepped id k b snap s = confirmNormal id k snap s := by simp [ampStepped, h, hc]

end Step

/-- What the completion of an AMP reading in ACTIVE leaves is what its debounce step has left. -/
theorem ampStepped_settled (ha : s.mc.mode = .active) (hm : s.move ≠ some []) (b : Debounce Condition)
    (snap : Option Snapshot) :
    Settled (ampStepped id k b snap s) (afterResult m (placeAmpIfCounting k (ampStepped id k b snap s))) :=
  afterResult_settled (staysActive_grants.ampStepped s (fun _ => id) k b snap ha) (MoveStands.ampStepped k b snap s hm)

end Sys2Proof.Machine

open Sys2Proof.Machine in
/-- Settles O27: the completion in ACTIVE leaves what the debounce step has left, and that is followed by the state of the
amplifier, with one record written and reported to the table before anything joins the changeover queue. -/
theorem amplifierReadingsMoveAmplifiersAndAskForCover : Obligations.AmplifierReadingsMoveAmplifiersAndAskForCover := by
  intro k ac prot s m hf hreset ht hc he ha hm x hx hd d hdeb y hy f hf' c hc'
  subst hx
  rw [← stepCondition_eq] at hdeb
  have judged : y = (s.amp k).judged ac prot := by rw [hy, hdeb]; rfl
  have hj : (s.amp k).JudgedTo y := judged ▸ (s.amp k).judgedTo ac prot
  have written : Written k y s s (s.setAmp k y) := (Written.self s k).setAmp y
  have fails := written.raised (.ampFail k) (some (.amp ac prot))
  have clears := written.cleared (.ampFail k) (some (.amp ac prot))
  have role : ((s.setAmp k y).amp k).cfg.role = (s.amp k).cfg.role := by rw [written.own, hj.cfg]
  have state : ((s.setAmp k y).amp k).state = (s.amp k).state := by rw [written.own, hj.state]
  have condition : y.condition = d.confirmed := by rw [hy]
  have runs : s.runs = true := by simp [State.runs, ha]
  refine ⟨_, completion_taken hf hreset (by rw [ht]; rfl), afterResult_store m _ s, ?_⟩
  rw [resultTaken_amp ac false prot ht hc he, ampReading_cases, if_neg hd, if_neg Bool.false_ne_true, ← judged, ← hdeb]
  have settled := ampStepped_settled (m := m) (k := k) (s := s.setAmp k y) ha hm d (some (.amp ac prot))
  generalize afterResult m _ = t at settled
  subst hf' hc'
  refine ⟨fun still => ?_, fun changed fail duty => ?_, fun changed fail standby => ?_, fun changed normal => ?_⟩
  · rw [ampStepped_still _ still] at settled
    obtain ⟨own, others, -, co, -, table⟩ := written.stepSuspect
    simp only [settled.amp, settled.co, settled.faults]
    refine ⟨?_, others, co, table.faults⟩
    rw [own, Amp.suspected, hj.state, hj.stamp, hy]
  · rw [ampStepped_fail _ changed fail, confirmFail_duty _ (role.trans duty)] at settled
    simp only [settled.amp, settled.co, settled.faults, settled.line]
    refine ⟨fun relieved => ?_, fun covered => ?_, fun well => dutyFails_asks fails hj runs well _ rfl,
      fun failed o ho _ z hz hk => dutyFails_coversAgain fails hj failed ho hz hk _ rfl⟩
    · rw [dutyFails_relieved (by rw [fails.own, hj.state, relieved]), ← hj.stamp]
      have moved := fails.setAmpState (st := .covered) (by rw [hj.state, relieved]; decide)
      exact ⟨moved.own, moved.co, moved.table.faults⟩
    · rw [dutyFails_covered (by rw [fails.own, hj.state, covered])]
      exact ⟨fails.own, fails.co, fails.table.faults⟩
  · rw [ampStepped_fail _ changed fail, confirmFail_standby _ (role.trans standby)] at settled
    simp only [settled.amp, settled.co, settled.faults, settled.line]
    obtain ⟨faulty, uncovers, failing⟩ := standbyFails_faulty fails ha _ rfl
    refine ⟨faulty, uncovers, failing.trans (condition.trans fail), fun free => standbyFails_freed fails hj free _ rfl,
      fun j covers busy hne => ⟨fun o ho cover stands phase own => ?_, fun q hq o ho ended lost =>
        standbyFails_uncovers fails hj busy covers hne ho hq ended lost _ rfl⟩⟩
    obtain ⟨record, moves⟩ := standbyFails_givesUp fails hj busy covers hne ho ha cover stands phase own _ rfl
    refine ⟨fun h => record (h.imp_right fun duties e he same => ?_), fun h => ?_⟩
    · have duty := duties e he
      rw [same, standby] at duty
      cases duty
    · obtain ⟨faults, carrying, co, current, verify⟩ := moves h
      exact ⟨faults, carrying, co, current, settled.verify _ verify⟩
  · rw [ampStepped_normal _ changed normal] at settled
    simp only [settled.amp, settled.co, settled.faults]
    refine ⟨fun covered => ?_, fun faulty idle => ?_,
      fun e head faulty standby op tail cover origin hne none free moves => ?_, fun failed o ho => ⟨fun own => ?_,
        fun e he other cover => ?_⟩⟩
    · rw [confirmNormal_covered _ (state.trans covered)]
      exact ⟨clears.own, clears.co, clears.table.faults⟩
    · rw [confirmNormal_faulty _ (state.trans faulty)]
      exact confirmNormal_frees clears hj faulty idle _ rfl
    · rw [confirmNormal_faulty _ (state.trans faulty)]
      exact confirmNormal_serves clears hj faulty runs standby op head tail cover origin hne none free moves _ rfl
    · rw [confirmNormal_operated _ (state.trans failed) ho own]
      exact ⟨clears.own, clears.co, clears.table.faults⟩
    · rw [confirmNormal_queued _ (state.trans failed) ho other he cover, ← hj.carrying, ← hj.stamp]
      exact recoverQueued_busy clears (hj.state.trans failed) ho he _ rfl
end
